-- ==== Sys2Proof/Word.lean ====
section
/-! DEFINITION. Word.lean: the value types of the bus (00_scope.md R3, R4): a datum is 8 bits, an address 16 bits, a
cycle count 64 bits; the five interrupt sources (10_state.md R26) and the four controller variants (10_state.md R16). -/

namespace Sys2Proof

/-- A bus datum, `DATA_W` = 8 bits (00_scope.md R3). -/
abbrev Byte := BitVec 8

/-- A bus address, `ADDR_W` = 16 bits (00_scope.md R3). -/
abbrev Addr := BitVec 16

/-- The `cycles` operand of STEP, `CYC_W` = 64 bits (00_scope.md R3, 90_conflicts.md C2). -/
abbrev Cycles := BitVec 64

/-- The operand of ATTACH_SYNTH, which only names the snapshot object (30_encoding.md R82). Its width is a DESIGN CHOICE (log 5). -/
abbrev Handle := BitVec 64

/-- The five interrupt sources (10_state.md R26, 42_interrupt_ops.md R170: no sixth can be written). -/
inductive Source where
  | vblank
  | lcdStat
  | timer
  | serial
  | joypad
deriving DecidableEq, Repr

/-- The tag of the bank-switching controller (10_state.md R16). -/
inductive Variant where
  | none
  | type1
  | type3
  | type5
deriving DecidableEq, Repr

end Sys2Proof
end

