-- ==== Sys2Proof/Config.lean ====
section
/-! DEFINITION. Config.lean: the parameters of 00_scope.md R3. Those with a value are constants; the OPEN ones that no
value is given for are uninterpreted constants without a body (free values); the two collaborators are uninterpreted
functions with the signatures of 10_state.md R28. -/

namespace Sys2Proof

namespace Config

/-- `FILL`, the fill byte (00_scope.md R3). -/
def fill : Byte := 0xFF#8

/-- `WRAM_LEN` (00_scope.md R3). -/
def wramLen : Nat := 0x2000

/-- `HRAM_LEN` (00_scope.md R3). -/
def hramLen : Nat := 0x7F

/-- `FB_LEN`, 160 × 144 pixels (00_scope.md R3). -/
def fbLen : Nat := 23040

/-- `IO_DIV`, cycles per tick of the I/O collaborator (00_scope.md R3, the spec's decision D23). -/
def ioDiv : Nat := 1

/-- `APU_DIV`, cycles per tick of the audio collaborator (00_scope.md R3, the spec's decision D23). -/
def apuDiv : Nat := 1

/-- `IE_RESET` (00_scope.md R3, the spec's decision D17). -/
def ieReset : Byte := 0x00#8

/-- `IF_RESET` (00_scope.md R3, the spec's decision D17). -/
def ifReset : Byte := 0x00#8

/-- Where R3 leaves `IF_ADDR` open: 0xFF00 to 0xFF0F or 0xFF40 to 0xFF7F (00_scope.md R3). -/
def ifAddrAllowed (a : Addr) : Bool :=
  decide ((0xFF00 ≤ a.toNat ∧ a.toNat ≤ 0xFF0F) ∨ (0xFF40 ≤ a.toNat ∧ a.toNat ≤ 0xFF7F))

/-- The I/O collaborator's own ranges (20_memory.md R42): 0x8000 to 0x9FFF, 0xFE00 to 0xFE9F, 0xFF00 to 0xFF0F and
0xFF40 to 0xFF7F without `IF_ADDR`. -/
def ioOwned (ifAddr a : Addr) : Bool :=
  decide ((0x8000 ≤ a.toNat ∧ a.toNat ≤ 0x9FFF) ∨ (0xFE00 ≤ a.toNat ∧ a.toNat ≤ 0xFE9F)
    ∨ (((0xFF00 ≤ a.toNat ∧ a.toNat ≤ 0xFF0F) ∨ (0xFF40 ≤ a.toNat ∧ a.toNat ≤ 0xFF7F)) ∧ a ≠ ifAddr))

end Config

/-- A chunk maximum, an integer from 1 to 2^64 − 1 (00_scope.md R3), held as one less so that no other value exists. -/
structure ChunkMax where
  pred : Fin 18446744073709551615
deriving DecidableEq, Repr, Inhabited

/-- The OPEN parameters of 00_scope.md R3 that have to be known to run a transaction. A state carries them, so that a
claim about every state is a claim about every value of them; no transaction changes them (log 6). -/
structure Cfg where
  /-- `IF_ADDR`, the bus address of the request byte. -/
  ifAddr : Addr
  /-- `T1_HIGH_IN_MODE1`: `sec` still gives ROM-bank bits 6:5 when `mode` = 1. -/
  t1HighInMode1 : Bool
  /-- `IO_CHUNK_MAX`. -/
  ioChunkMax : ChunkMax
  /-- `APU_CHUNK_MAX`. -/
  apuChunkMax : ChunkMax
  /-- `IF_ADDR` lies where R3 allows it. -/
  ifAddrOk : Config.ifAddrAllowed ifAddr = true
deriving DecidableEq, Repr

/-- `IOS`, the I/O collaborator's state, opaque to the block (10_state.md R28). DESIGN CHOICE: a countable state, named
by a natural number (log 9). -/
structure IoState where
  code : Nat
deriving DecidableEq, Repr, Inhabited

/-- `APUS`, the audio collaborator's state, opaque to the block (10_state.md R28; log 9). -/
structure ApuState where
  code : Nat
deriving DecidableEq, Repr, Inhabited

/-- An address a callback may use: one outside the I/O collaborator's own ranges (43_step_coordinator.md R188). -/
structure CallbackAddr (ifAddr : Addr) where
  addr : Addr
  outside : Config.ioOwned ifAddr addr = false

/-- One `io_step` call as an interaction (10_state.md R28, 43_step_coordinator.md R188): finitely many callbacks, each
answered before the next is issued, ending in the collaborator's new state. Finiteness is the inductive type's own. -/
inductive IoProg (ifAddr : Addr) where
  /-- The call ends in this state `IOS'`. -/
  | done (ios : IoState)
  /-- `CB_READ a`; the collaborator goes on as the byte it is answered says. -/
  | read (a : CallbackAddr ifAddr) (k : Byte → IoProg ifAddr)
  /-- `CB_WRITE a, v`. -/
  | write (a : CallbackAddr ifAddr) (v : Byte) (k : IoProg ifAddr)
  /-- `CB_IRQ i`. -/
  | irq (i : Source) (k : IoProg ifAddr)
deriving Inhabited

namespace Config

/-- `IO_CHUNK_MAX`, OPEN (00_scope.md R3): no value is chosen (log 6). -/
opaque ioChunkMax : ChunkMax

/-- `APU_CHUNK_MAX`, OPEN (00_scope.md R3): no value is chosen (log 6). -/
opaque apuChunkMax : ChunkMax

/-- Which of the 80 addresses R3 allows is `IF_ADDR`, OPEN (00_scope.md R3): none is chosen (log 6). -/
opaque ifAddrIndex : Fin 80

/-- The allowed addresses in rising order: 0xFF00 to 0xFF0F, then 0xFF40 to 0xFF7F (00_scope.md R3). -/
def ifAddrOfIndex (k : Fin 80) : Addr := BitVec.ofNat 16 (if k.val < 16 then 0xFF00 + k.val else 0xFF30 + k.val)

theorem ifAddrOfIndex_allowed : ∀ k, ifAddrAllowed (ifAddrOfIndex k) = true := by decide

/-- `T1_HIGH_IN_MODE1`, OPEN (00_scope.md R3): no value is chosen (log 6). -/
opaque t1HighInMode1 : Bool

/-- `WRAM_INIT`, `HRAM_INIT` and `ERAM_INIT`, OPEN (00_scope.md R3): the unspecified byte at an offset of the buffer that
was made by the given draw. Every fresh buffer has a draw of its own (log 7). -/
opaque ramInit : (draw offset : Nat) → Byte

/-- `IOS0` (10_state.md R34), OPEN. -/
opaque ios0 : IoState

/-- `APUS0` (10_state.md R34), OPEN. -/
opaque apus0 : ApuState

/-- `io_read` (10_state.md R28); a read may change `IOS`. -/
opaque ioRead : IoState → Addr → Byte × IoState

/-- `io_write` (10_state.md R28); the byte is the request mask `q`, of which the block uses bits 4:0. -/
opaque ioWrite : IoState → Addr → Byte → IoState × Byte

/-- `io_step` (10_state.md R28). It is told `IF_ADDR`, since that address decides which accesses are its own. -/
opaque ioStep : (ifAddr : Addr) → IoState → Nat → IoProg ifAddr

/-- `io_is_dma_active` (10_state.md R28), pure. -/
opaque ioIsDmaActive : IoState → Bool

/-- `io_joypad` (10_state.md R28). -/
opaque ioJoypad : IoState → Byte → IoState

/-- The 2-bit shade of the pixel at a position of the frame (10_state.md R28, 44_cartridge_and_passthrough.md R208);
what the position means on the screen is not in the source (log 11). -/
opaque ioShade : IoState → (pixel : Nat) → BitVec 2

/-- `apu_read` (10_state.md R28). -/
opaque apuRead : ApuState → Addr → Byte × ApuState

/-- `apu_write` (10_state.md R28). -/
opaque apuWrite : ApuState → Addr → Byte → ApuState

/-- `apu_step` (10_state.md R28). -/
opaque apuStep : ApuState → Nat → ApuState

end Config

/-- The chunk maximum as a number, at least 1 (00_scope.md R3). -/
def ChunkMax.val (m : ChunkMax) : Nat := m.pred.val + 1

/-- The OPEN parameters of the block after reset: every one uninterpreted, within the bounds of R3 alone (log 6). -/
def Cfg.unfixed : Cfg :=
  { ifAddr := Config.ifAddrOfIndex Config.ifAddrIndex, t1HighInMode1 := Config.t1HighInMode1
    ioChunkMax := Config.ioChunkMax, apuChunkMax := Config.apuChunkMax
    ifAddrOk := Config.ifAddrOfIndex_allowed Config.ifAddrIndex }

end Sys2Proof
end

