-- ==== Sys2Proof/Syntax.lean ====
section
/-! DEFINITION. Syntax.lean: every operation of the block as a constructor (30_encoding.md R71, R72, R74; a row of
spec/opcode_table.json each), and the packet in which a caller presents one. -/

namespace Sys2Proof

/-- The operations of the block. `rd…` and `wr…` with a region are the sub-operations of format `A`, `none…`, `t1…`,
`t3…`, `t5…` those of format `M`; the others are the transactions of format `P`. -/
inductive Instr where
  -- format A, reads (30_encoding.md R72)
  | rdRom0 (a : Addr)
  | rdRomx (a : Addr)
  | rdVram (a : Addr)
  | rdEram (a : Addr)
  | rdWram (a : Addr)
  | rdUnmapped (a : Addr)
  | rdOam (a : Addr)
  | rdIo (a : Addr)
  | rdIf
  | rdApu (a : Addr)
  | rdHram (a : Addr)
  | rdIe
  -- format A, writes (30_encoding.md R72)
  | wrMbc (a : Addr) (v : Byte)
  | wrVram (a : Addr) (v : Byte)
  | wrEram (a : Addr) (v : Byte)
  | wrWram (a : Addr) (v : Byte)
  | wrUnmapped (a : Addr) (v : Byte)
  | wrOam (a : Addr) (v : Byte)
  | wrIo (a : Addr) (v : Byte)
  | wrIf (v : Byte)
  | wrApu (a : Addr) (v : Byte)
  | wrHram (a : Addr) (v : Byte)
  | wrIe (v : Byte)
  -- format M (30_encoding.md R74); the address keeps its ignored low bits
  | noneCtrl (a : Addr) (v : Byte)
  | t1Ramen (a : Addr) (v : Byte)
  | t1Romb (a : Addr) (v : Byte)
  | t1Sec (a : Addr) (v : Byte)
  | t1Mode (a : Addr) (v : Byte)
  | t3Ramen (a : Addr) (v : Byte)
  | t3Romb (a : Addr) (v : Byte)
  | t3Ramb (a : Addr) (v : Byte)
  | t3Latch (a : Addr) (v : Byte)
  | t5Ramen (a : Addr) (v : Byte)
  | t5RombLo (a : Addr) (v : Byte)
  | t5RombHi (a : Addr) (v : Byte)
  | t5Ramb (a : Addr) (v : Byte)
  | t5Rsvd (a : Addr) (v : Byte)
  -- format P (30_encoding.md R71)
  | rd (a : Addr)
  | wr (a : Addr) (v : Byte)
  | step (cycles : Cycles)
  | loadRom (image : List Byte)
  | reset
  | getIeRaw
  | getIfRaw
  | setIfRaw (v : Byte)
  | irqEnable (i : Source)
  | irqDisable (i : Source)
  | irqRequest (i : Source)
  | irqClear (i : Source)
  | irqAny
  | irqResolve
  | curRomBank
  | xlatRom (a : Addr)
  | xlatRam (a : Addr)
  | mbcRead (a : Addr)
  | mbcWrite (a : Addr) (v : Byte)
  | attachSynth (h : Handle)
  | framebuffer
  | isDmaActive
  | joypadInject (j : Byte)
deriving DecidableEq, Repr

/-- The three decodes (30_encoding.md, opening): `A` the bus's address decode, `M` the controller's, `P` the port's. -/
inductive Format where
  | a
  | m
  | p
deriving DecidableEq, Repr

/-- What a caller presents as one transaction: a word read in one of the three formats, the 64-bit numbers of its
extension operand and the bytes that follow them (30_encoding.md R70, R82). The framing is a DESIGN CHOICE (log 3, log 5).
Format `P`: the whole word. Formats `A` and `M`: the key in bits 23:0, the datum of a write in bits 31:24. -/
structure Packet where
  format : Format
  word : BitVec 32
  ext : List (BitVec 64)
  bytes : List Byte
deriving DecidableEq, Repr

end Sys2Proof
end

