-- ==== Sys2Proof/WellFormed.lean ====
section
/-! DEFINITION. WellFormed.lean: which operand values an operation may carry (30_encoding.md R72, R74, R82). Every
operand of a format `P` transaction is legal (R79) but for an image too long for its 64-bit length. -/

namespace Sys2Proof

/-- `lo` ≤ address ≤ `hi`, both ends included (00_scope.md R4). -/
def within (lo hi : Nat) (a : Addr) : Bool := decide (lo ≤ a.toNat ∧ a.toNat ≤ hi)

/-- The two holes (20_memory.md R41). -/
def inHoles (a : Addr) : Bool := within 0xE000 0xFDFF a || within 0xFEA0 0xFEFF a

/-- The I/O collaborator's part of 0xFF00 to 0xFF7F (20_memory.md R42(c)). -/
def inIo (ifAddr a : Addr) : Bool := (within 0xFF00 0xFF0F a || within 0xFF40 0xFF7F a) && a != ifAddr

/-- An operation's operands lie in the range its row gives them (30_encoding.md R72, R74, R82). -/
def Instr.wellFormed (ifAddr : Addr) : Instr → Bool
  | .rdRom0 a => within 0x0000 0x3FFF a
  | .rdRomx a => within 0x4000 0x7FFF a
  | .rdVram a => within 0x8000 0x9FFF a
  | .rdEram a => within 0xA000 0xBFFF a
  | .rdWram a => within 0xC000 0xDFFF a
  | .rdUnmapped a => inHoles a
  | .rdOam a => within 0xFE00 0xFE9F a
  | .rdIo a => inIo ifAddr a
  | .rdIf => true
  | .rdApu a => within 0xFF10 0xFF3F a
  | .rdHram a => within 0xFF80 0xFFFE a
  | .rdIe => true
  | .wrMbc a _ => within 0x0000 0x7FFF a
  | .wrVram a _ => within 0x8000 0x9FFF a
  | .wrEram a _ => within 0xA000 0xBFFF a
  | .wrWram a _ => within 0xC000 0xDFFF a
  | .wrUnmapped a _ => inHoles a
  | .wrOam a _ => within 0xFE00 0xFE9F a
  | .wrIo a _ => inIo ifAddr a
  | .wrIf _ => true
  | .wrApu a _ => within 0xFF10 0xFF3F a
  | .wrHram a _ => within 0xFF80 0xFFFE a
  | .wrIe _ => true
  | .noneCtrl a _ => within 0x0000 0x7FFF a
  | .t1Ramen a _ => within 0x0000 0x1FFF a
  | .t1Romb a _ => within 0x2000 0x3FFF a
  | .t1Sec a _ => within 0x4000 0x5FFF a
  | .t1Mode a _ => within 0x6000 0x7FFF a
  | .t3Ramen a _ => within 0x0000 0x1FFF a
  | .t3Romb a _ => within 0x2000 0x3FFF a
  | .t3Ramb a _ => within 0x4000 0x5FFF a
  | .t3Latch a _ => within 0x6000 0x7FFF a
  | .t5Ramen a _ => within 0x0000 0x1FFF a
  | .t5RombLo a _ => within 0x2000 0x2FFF a
  | .t5RombHi a _ => within 0x3000 0x3FFF a
  | .t5Ramb a _ => within 0x4000 0x5FFF a
  | .t5Rsvd a _ => within 0x6000 0x7FFF a
  | .loadRom image => decide (image.length < 2 ^ 64)
  | .rd _ => true
  | .wr _ _ => true
  | .step _ => true
  | .reset => true
  | .getIeRaw => true
  | .getIfRaw => true
  | .setIfRaw _ => true
  | .irqEnable _ => true
  | .irqDisable _ => true
  | .irqRequest _ => true
  | .irqClear _ => true
  | .irqAny => true
  | .irqResolve => true
  | .curRomBank => true
  | .xlatRom _ => true
  | .xlatRam _ => true
  | .mbcRead _ => true
  | .mbcWrite _ _ => true
  | .attachSynth _ => true
  | .framebuffer => true
  | .isDmaActive => true
  | .joypadInject _ => true

end Sys2Proof
end

