-- ==== Sys2Proof/Decode.lean ====
section
/-! DEFINITION. Decode.lean: the three decodes of 30_encoding.md (format `A` R72, format `M` R74, format `P` R70 and
R71), total on every packet, each rejection by name (R79); then the encoder, from the same tables; then the cartridge
header decode (R78) and the reading of a word as spec/opcode_table.json numbers it. -/

namespace Sys2Proof

/-- Why a packet is no operation (30_encoding.md R79(d)). Format `A` and `M` keys are numbers of 17 and 19 bits. -/
inductive DecodeError where
  /-- A format `P` `op` that is not in R71. -/
  | reservedOp
  /-- A field the operation does not use is not zero. -/
  | unusedField
  /-- A source index 5 to 7. -/
  | reservedSource
  /-- The extension operand is missing, too long, or its length does not agree with its bytes. -/
  | extension
  /-- A word that is no 17-bit key, or no 19-bit key of a control register. -/
  | noSuchKey
deriving DecidableEq, Repr

/-! ### Interrupt source index (30_encoding.md R77) -/

/-- The bit number of a source (30_encoding.md R77). -/
def Source.index : Source → Nat
  | .vblank => 0
  | .lcdStat => 1
  | .timer => 2
  | .serial => 3
  | .joypad => 4

/-- The source of an index; 5 and above name none (30_encoding.md R77). -/
def Source.ofIndex : Nat → Option Source
  | 0 => some .vblank
  | 1 => some .lcdStat
  | 2 => some .timer
  | 3 => some .serial
  | 4 => some .joypad
  | _ => none

/-! ### Format A: the address decode of the bus (30_encoding.md R72, 20_memory.md R40 to R42) -/

/-- The destinations of an address. `WR` sends `rom0` and `romx` to the controller (R72). -/
inductive Region where
  | rom0
  | romx
  | vram
  | eram
  | wram
  | unmapped
  | oam
  | io
  | ifl
  | apu
  | hram
  | ie
deriving DecidableEq, Repr

/-- Which destination an address selects: the ranges of 20_memory.md R40, the `IO` range split as R42 splits it. The order
of the tests is only a way of writing a disjoint partition (40_bus_read_write.md R100). -/
def regionOf (ifAddr a : Addr) : Region :=
  if a.toNat ≤ 0x3FFF then .rom0
  else if a.toNat ≤ 0x7FFF then .romx
  else if a.toNat ≤ 0x9FFF then .vram
  else if a.toNat ≤ 0xBFFF then .eram
  else if a.toNat ≤ 0xDFFF then .wram
  else if a.toNat ≤ 0xFDFF then .unmapped
  else if a.toNat ≤ 0xFE9F then .oam
  else if a.toNat ≤ 0xFEFF then .unmapped
  else if a.toNat ≤ 0xFF7F then
    if 0xFF10 ≤ a.toNat ∧ a.toNat ≤ 0xFF3F then .apu
    else if a = ifAddr then .ifl
    else .io
  else if a.toNat ≤ 0xFFFE then .hram
  else .ie

/-- The read sub-operation of an address (30_encoding.md R72). -/
def readOp (ifAddr a : Addr) : Instr :=
  match regionOf ifAddr a with
  | .rom0 => .rdRom0 a
  | .romx => .rdRomx a
  | .vram => .rdVram a
  | .eram => .rdEram a
  | .wram => .rdWram a
  | .unmapped => .rdUnmapped a
  | .oam => .rdOam a
  | .io => .rdIo a
  | .ifl => .rdIf
  | .apu => .rdApu a
  | .hram => .rdHram a
  | .ie => .rdIe

/-- The write sub-operation of an address (30_encoding.md R72). -/
def writeOp (ifAddr a : Addr) (v : Byte) : Instr :=
  match regionOf ifAddr a with
  | .rom0 => .wrMbc a v
  | .romx => .wrMbc a v
  | .vram => .wrVram a v
  | .eram => .wrEram a v
  | .wram => .wrWram a v
  | .unmapped => .wrUnmapped a v
  | .oam => .wrOam a v
  | .io => .wrIo a v
  | .ifl => .wrIf v
  | .apu => .wrApu a v
  | .hram => .wrHram a v
  | .ie => .wrIe v

/-! ### Format M: the control-register decode (30_encoding.md R74) -/

/-- The sub-operation a control-register write selects under a variant; none above 0x7FFF (30_encoding.md R74). -/
def controlOp (t : Variant) (a : Addr) (v : Byte) : Option Instr :=
  if a.toNat ≤ 0x7FFF then
    some (match t with
      | .none => .noneCtrl a v
      | .type1 =>
        if a.toNat ≤ 0x1FFF then .t1Ramen a v
        else if a.toNat ≤ 0x3FFF then .t1Romb a v
        else if a.toNat ≤ 0x5FFF then .t1Sec a v
        else .t1Mode a v
      | .type3 =>
        if a.toNat ≤ 0x1FFF then .t3Ramen a v
        else if a.toNat ≤ 0x3FFF then .t3Romb a v
        else if a.toNat ≤ 0x5FFF then .t3Ramb a v
        else .t3Latch a v
      | .type5 =>
        if a.toNat ≤ 0x1FFF then .t5Ramen a v
        else if a.toNat ≤ 0x2FFF then .t5RombLo a v
        else if a.toNat ≤ 0x3FFF then .t5RombHi a v
        else if a.toNat ≤ 0x5FFF then .t5Ramb a v
        else .t5Rsvd a v)
  else none

/-- The tag of a variant in a format `M` key (30_encoding.md R74). -/
def Variant.tag : Variant → BitVec 3
  | .none => 0#3
  | .type1 => 1#3
  | .type3 => 3#3
  | .type5 => 5#3

/-- The variant of a tag; 2, 4, 6 and 7 name none (30_encoding.md R74). -/
def Variant.ofTag (t : BitVec 3) : Option Variant :=
  if t = 0#3 then some .none
  else if t = 1#3 then some .type1
  else if t = 3#3 then some .type3
  else if t = 5#3 then some .type5
  else Option.none

/-! ### Format P: the transaction word (30_encoding.md R70, R71) -/

/-- The operations that have an `op` code (30_encoding.md R71). -/
inductive Op where
  | rd
  | wr
  | step
  | loadRom
  | reset
  | getIeRaw
  | getIfRaw
  | setIfRaw
  | irqEnable
  | irqDisable
  | irqRequest
  | irqClear
  | irqAny
  | irqResolve
  | curRomBank
  | xlatRom
  | xlatRam
  | mbcRead
  | mbcWrite
  | attachSynth
  | framebuffer
  | isDmaActive
  | joypadInject
deriving DecidableEq, Repr

/-- The `op` code of an operation (30_encoding.md R71). -/
def Op.code : Op → BitVec 8
  | .rd => 0x00#8
  | .wr => 0x01#8
  | .step => 0x02#8
  | .loadRom => 0x03#8
  | .reset => 0x04#8
  | .getIeRaw => 0x10#8
  | .getIfRaw => 0x11#8
  | .setIfRaw => 0x12#8
  | .irqEnable => 0x13#8
  | .irqDisable => 0x14#8
  | .irqRequest => 0x15#8
  | .irqClear => 0x16#8
  | .irqAny => 0x17#8
  | .irqResolve => 0x18#8
  | .curRomBank => 0x20#8
  | .xlatRom => 0x21#8
  | .xlatRam => 0x22#8
  | .mbcRead => 0x23#8
  | .mbcWrite => 0x24#8
  | .attachSynth => 0x30#8
  | .framebuffer => 0x31#8
  | .isDmaActive => 0x32#8
  | .joypadInject => 0x33#8

/-- The operations of R71, in its order. -/
def Op.all : List Op :=
  [.rd, .wr, .step, .loadRom, .reset, .getIeRaw, .getIfRaw, .setIfRaw, .irqEnable, .irqDisable, .irqRequest, .irqClear]
    ++ [.irqAny, .irqResolve, .curRomBank, .xlatRom, .xlatRam, .mbcRead, .mbcWrite, .attachSynth, .framebuffer,
      .isDmaActive, .joypadInject]

/-- The operation of a code; every code outside R71 is reserved (30_encoding.md R79(d)). -/
def Op.ofCode (c : BitVec 8) : Option Op := Op.all.find? (fun o => o.code == c)

/-- Does the operation carry a 64-bit number after its word (30_encoding.md R82)? -/
def Op.hasExt : Op → Bool
  | .step | .loadRom | .attachSynth => true
  | _ => false

/-- A transaction without extension operand: its unused fields are zero and nothing follows the word. -/
def bareOp (fieldsOk : Bool) (ext : List (BitVec 64)) (bytes : List Byte) (i : Instr) : Except DecodeError Instr :=
  if fieldsOk then
    if ext = [] ∧ bytes = [] then .ok i else .error .extension
  else .error .unusedField

/-- A transaction followed by one 64-bit number and no bytes (STEP, ATTACH_SYNTH; 30_encoding.md R82). -/
def numberOp (fieldsOk : Bool) (ext : List (BitVec 64)) (bytes : List Byte) (f : BitVec 64 → Instr) :
    Except DecodeError Instr :=
  if fieldsOk then
    match ext, bytes with
    | [n], [] => .ok (f n)
    | _, _ => .error .extension
  else .error .unusedField

/-- LOAD_ROM: a 64-bit length and then that many bytes (30_encoding.md R82). -/
def imageOp (fieldsOk : Bool) (ext : List (BitVec 64)) (bytes : List Byte) : Except DecodeError Instr :=
  if fieldsOk then
    match ext with
    | [n] => if n.toNat = bytes.length then .ok (.loadRom bytes) else .error .extension
    | _ => .error .extension
  else .error .unusedField

/-- A named interrupt operation: `data[2:0]` is the index, `data[7:3]` is zero (30_encoding.md R70, R77, R79(d)). -/
def sourceOp (addrOk : Bool) (d : Byte) (ext : List (BitVec 64)) (bytes : List Byte) (f : Source → Instr) :
    Except DecodeError Instr :=
  if addrOk && decide (d.toNat ≤ 7) then
    match Source.ofIndex d.toNat with
    | some i => bareOp true ext bytes (f i)
    | none => .error .reservedSource
  else .error .unusedField

/-- The transaction of an operation with its `addr` and `data` fields and its extension operand (30_encoding.md R71). -/
def decodeOp (o : Op) (a : Addr) (d : Byte) (ext : List (BitVec 64)) (bytes : List Byte) : Except DecodeError Instr :=
  match o with
  | .rd => bareOp (d == 0) ext bytes (.rd a)
  | .wr => bareOp true ext bytes (.wr a d)
  | .step => numberOp (a == 0 && d == 0) ext bytes .step
  | .loadRom => imageOp (a == 0 && d == 0) ext bytes
  | .reset => bareOp (a == 0 && d == 0) ext bytes .reset
  | .getIeRaw => bareOp (a == 0 && d == 0) ext bytes .getIeRaw
  | .getIfRaw => bareOp (a == 0 && d == 0) ext bytes .getIfRaw
  | .setIfRaw => bareOp (a == 0) ext bytes (.setIfRaw d)
  | .irqEnable => sourceOp (a == 0) d ext bytes .irqEnable
  | .irqDisable => sourceOp (a == 0) d ext bytes .irqDisable
  | .irqRequest => sourceOp (a == 0) d ext bytes .irqRequest
  | .irqClear => sourceOp (a == 0) d ext bytes .irqClear
  | .irqAny => bareOp (a == 0 && d == 0) ext bytes .irqAny
  | .irqResolve => bareOp (a == 0 && d == 0) ext bytes .irqResolve
  | .curRomBank => bareOp (a == 0 && d == 0) ext bytes .curRomBank
  | .xlatRom => bareOp (d == 0) ext bytes (.xlatRom a)
  | .xlatRam => bareOp (d == 0) ext bytes (.xlatRam a)
  | .mbcRead => bareOp (d == 0) ext bytes (.mbcRead a)
  | .mbcWrite => bareOp true ext bytes (.mbcWrite a d)
  | .attachSynth => numberOp (a == 0 && d == 0) ext bytes .attachSynth
  | .framebuffer => bareOp (a == 0 && d == 0) ext bytes .framebuffer
  | .isDmaActive => bareOp (a == 0 && d == 0) ext bytes .isDmaActive
  | .joypadInject => bareOp (a == 0) ext bytes (.joypadInject d)

/-- `W[31:24]` (30_encoding.md R70); the datum of a format `A` or `M` packet. -/
def opField (w : BitVec 32) : BitVec 8 := w.extractLsb' 24 8

/-- `W[23:8]` (30_encoding.md R70). -/
def addrField (w : BitVec 32) : Addr := w.extractLsb' 8 16

/-- `W[7:0]` (30_encoding.md R70). -/
def dataField (w : BitVec 32) : Byte := w.extractLsb' 0 8

/-- `K[15:0]` of a format `A` or `M` key (30_encoding.md R72, R74). -/
def keyAddr (w : BitVec 32) : Addr := w.extractLsb' 0 16

/-- `K[16]` and the bits above it up to bit 23: `rw` in format `A`, the tag in format `M`, zero above them. -/
def keyHigh (w : BitVec 32) : BitVec 8 := w.extractLsb' 16 8

/-- Format `P` (30_encoding.md R70, R71, R79(d)). -/
def decodeP (w : BitVec 32) (ext : List (BitVec 64)) (bytes : List Byte) : Except DecodeError Instr :=
  match Op.ofCode (opField w) with
  | some o => decodeOp o (addrField w) (dataField w) ext bytes
  | none => .error .reservedOp

/-- Format `A` (30_encoding.md R72): a read has no datum. -/
def decodeA (ifAddr : Addr) (w : BitVec 32) (ext : List (BitVec 64)) (bytes : List Byte) : Except DecodeError Instr :=
  if keyHigh w = 0#8 then bareOp (opField w == 0) ext bytes (readOp ifAddr (keyAddr w))
  else if keyHigh w = 1#8 then bareOp true ext bytes (writeOp ifAddr (keyAddr w) (opField w))
  else .error .noSuchKey

/-- Format `M` (30_encoding.md R74). -/
def decodeM (w : BitVec 32) (ext : List (BitVec 64)) (bytes : List Byte) : Except DecodeError Instr :=
  if keyHigh w = ((keyHigh w).setWidth 3).setWidth 8 then
    match Variant.ofTag ((keyHigh w).setWidth 3) with
    | some t =>
      match controlOp t (keyAddr w) (opField w) with
      | some i => bareOp true ext bytes i
      | none => .error .noSuchKey
    | none => .error .noSuchKey
  else .error .noSuchKey

/-- The operation a packet presents, or the reason there is none. -/
def decode (ifAddr : Addr) (p : Packet) : Except DecodeError Instr :=
  match p.format with
  | .a => decodeA ifAddr p.word p.ext p.bytes
  | .m => decodeM p.word p.ext p.bytes
  | .p => decodeP p.word p.ext p.bytes

/-! ### The encoder, from the same tables -/

/-- The format `P` word {`op`, `addr`, `data`} (30_encoding.md R70). -/
def wordP (op : BitVec 8) (a : Addr) (d : Byte) : BitVec 32 := op ++ (a ++ d)

/-- The word of a format `A` or `M` packet: the datum above the key. -/
def wordKey (v : Byte) (high : BitVec 8) (a : Addr) : BitVec 32 := v ++ (high ++ a)

def packetP (o : Op) (a : Addr) (d : Byte) : Packet := { format := .p, word := wordP o.code a d, ext := [], bytes := [] }

def packetRead (a : Addr) : Packet := { format := .a, word := wordKey 0#8 0#8 a, ext := [], bytes := [] }

def packetWrite (a : Addr) (v : Byte) : Packet := { format := .a, word := wordKey v 1#8 a, ext := [], bytes := [] }

def packetControl (t : Variant) (a : Addr) (v : Byte) : Packet :=
  { format := .m, word := wordKey v (t.tag.setWidth 8) a, ext := [], bytes := [] }

/-- The data byte that names a source (30_encoding.md R77). -/
def sourceByte (i : Source) : Byte := BitVec.ofNat 8 i.index

/-- The packet of a well-formed operation. -/
def encode (ifAddr : Addr) : Instr → Packet
  | .rdRom0 a => packetRead a
  | .rdRomx a => packetRead a
  | .rdVram a => packetRead a
  | .rdEram a => packetRead a
  | .rdWram a => packetRead a
  | .rdUnmapped a => packetRead a
  | .rdOam a => packetRead a
  | .rdIo a => packetRead a
  | .rdIf => packetRead ifAddr
  | .rdApu a => packetRead a
  | .rdHram a => packetRead a
  | .rdIe => packetRead 0xFFFF#16
  | .wrMbc a v => packetWrite a v
  | .wrVram a v => packetWrite a v
  | .wrEram a v => packetWrite a v
  | .wrWram a v => packetWrite a v
  | .wrUnmapped a v => packetWrite a v
  | .wrOam a v => packetWrite a v
  | .wrIo a v => packetWrite a v
  | .wrIf v => packetWrite ifAddr v
  | .wrApu a v => packetWrite a v
  | .wrHram a v => packetWrite a v
  | .wrIe v => packetWrite 0xFFFF#16 v
  | .noneCtrl a v => packetControl .none a v
  | .t1Ramen a v => packetControl .type1 a v
  | .t1Romb a v => packetControl .type1 a v
  | .t1Sec a v => packetControl .type1 a v
  | .t1Mode a v => packetControl .type1 a v
  | .t3Ramen a v => packetControl .type3 a v
  | .t3Romb a v => packetControl .type3 a v
  | .t3Ramb a v => packetControl .type3 a v
  | .t3Latch a v => packetControl .type3 a v
  | .t5Ramen a v => packetControl .type5 a v
  | .t5RombLo a v => packetControl .type5 a v
  | .t5RombHi a v => packetControl .type5 a v
  | .t5Ramb a v => packetControl .type5 a v
  | .t5Rsvd a v => packetControl .type5 a v
  | .rd a => packetP .rd a 0#8
  | .wr a v => packetP .wr a v
  | .step n => { packetP .step 0#16 0#8 with ext := [n] }
  | .loadRom image => { packetP .loadRom 0#16 0#8 with ext := [BitVec.ofNat 64 image.length], bytes := image }
  | .reset => packetP .reset 0#16 0#8
  | .getIeRaw => packetP .getIeRaw 0#16 0#8
  | .getIfRaw => packetP .getIfRaw 0#16 0#8
  | .setIfRaw v => packetP .setIfRaw 0#16 v
  | .irqEnable i => packetP .irqEnable 0#16 (sourceByte i)
  | .irqDisable i => packetP .irqDisable 0#16 (sourceByte i)
  | .irqRequest i => packetP .irqRequest 0#16 (sourceByte i)
  | .irqClear i => packetP .irqClear 0#16 (sourceByte i)
  | .irqAny => packetP .irqAny 0#16 0#8
  | .irqResolve => packetP .irqResolve 0#16 0#8
  | .curRomBank => packetP .curRomBank 0#16 0#8
  | .xlatRom a => packetP .xlatRom a 0#8
  | .xlatRam a => packetP .xlatRam a 0#8
  | .mbcRead a => packetP .mbcRead a 0#8
  | .mbcWrite a v => packetP .mbcWrite a v
  | .attachSynth h => { packetP .attachSynth 0#16 0#8 with ext := [h] }
  | .framebuffer => packetP .framebuffer 0#16 0#8
  | .isDmaActive => packetP .isDmaActive 0#16 0#8
  | .joypadInject j => packetP .joypadInject 0#16 j

/-! ### A word as spec/opcode_table.json numbers it -/

/-- Is a number a format `M` key of a banked variant: tag 1, 3 or 5 and an address up to 0x7FFF? -/
def bankedKey (w : Nat) : Bool :=
  (w / 0x10000 == 1 || w / 0x10000 == 3 || w / 0x10000 == 5) && decide (w % 0x10000 ≤ 0x7FFF)

/-- The format of a table word by its number of bits: 17 is a format `A` key, 19 a format `M` key, 32 a format `P` word.
A key of 24 bits may be either; DESIGN CHOICE: it is read as `M` under a banked variant's tag, else as `A` (log 3). -/
def tableFormat (nbits w : Nat) : Format :=
  if nbits ≤ 17 then .a
  else if nbits ≤ 19 then .m
  else if nbits ≤ 24 then (if bankedKey w then .m else .a)
  else .p

/-- The packet of a table word: the word, and zero for a 64-bit number the operation takes. -/
def tablePacket (nbits w : Nat) : Packet :=
  let word := BitVec.ofNat 32 w
  let format := tableFormat nbits w
  let ext : List (BitVec 64) :=
    match format, Op.ofCode (opField word) with
    | .p, some o => if o.hasExt then [0#64] else []
    | _, _ => []
  { format := format, word := word, ext := ext, bytes := [] }

/-- Where spec/opcode_table.json puts `IF_ADDR`: its rows are written for 0xFF0F (30_encoding.md R73). It is the table's
reading of its own rows, not a value of the parameter. -/
def tableIfAddr : Addr := 0xFF0F#16

theorem tableIfAddr_allowed : Config.ifAddrAllowed tableIfAddr = true := by decide

/-- The packets whose decoding depends on where `IF_ADDR` is: the format `A` keys of the `IO` and `IF` rows, which R73 says
are written for `tableIfAddr`. The decoding of every other packet is the same for every `IF_ADDR` (Laws/Step.lean,
`decode_eq_of_not_consultsIfAddr`). -/
def consultsIfAddr (p : Packet) : Bool := p.format == .a && Config.ifAddrAllowed (keyAddr p.word)

/-- The operation the decoder reads from a word numbered as spec/opcode_table.json numbers it, with `IF_ADDR` where the
table puts it (30_encoding.md R73). -/
def decodeTableWord (nbits w : Nat) : Option Instr :=
  if w < 2 ^ 32 then
    match decode tableIfAddr (tablePacket nbits w) with
    | .ok i => some i
    | .error _ => none
  else none

/-! ### Cartridge header (30_encoding.md R78; the tables are the spec's decision D5) -/

/-- `HDR_TYPE_OFF` (00_scope.md R3). -/
def hdrTypeOff : Nat := 0x0147

/-- `HDR_RAM_OFF` (00_scope.md R3). -/
def hdrRamOff : Nat := 0x0149

/-- `variant_of_code` (30_encoding.md R78); a code outside the table gives `None`. -/
def variantOfCode (c : Byte) : Variant :=
  if 0x01 ≤ c.toNat ∧ c.toNat ≤ 0x03 then .type1
  else if 0x0F ≤ c.toNat ∧ c.toNat ≤ 0x13 then .type3
  else if 0x19 ≤ c.toNat ∧ c.toNat ≤ 0x1E then .type5
  else .none

/-- `eram_len_of_code` (30_encoding.md R78); a code outside the table gives 0. -/
def eramLenOfCode (c : Byte) : Nat :=
  if c = 0x01#8 then 0x800
  else if c = 0x02#8 then 0x2000
  else if c = 0x03#8 then 0x8000
  else if c = 0x04#8 then 0x20000
  else if c = 0x05#8 then 0x10000
  else 0

/-- `derive_variant` (44_cartridge_and_passthrough.md R201); an absent byte is unrecognised. -/
def deriveVariant (image : List Byte) : Variant :=
  match image[hdrTypeOff]? with
  | some c => variantOfCode c
  | none => .none

/-- `derive_eram_len` (44_cartridge_and_passthrough.md R202); an absent byte gives 0. -/
def deriveEramLen (image : List Byte) : Nat :=
  match image[hdrRamOff]? with
  | some c => eramLenOfCode c
  | none => 0

end Sys2Proof
end

