-- ==== Sys2Proof/Machine/State.lean ====
section
/-! DEFINITION. Machine/State.lean: the state of the block (10_state.md R11) as plain data, the model's own fields that
exec's form needs (INVENTORY.md, State), the two reasons a step can stop, and the state right after reset (R34). -/

namespace Sys2Proof.Machine

/-- A buffer of bytes (10_state.md R13 to R15): its length, which draw of unspecified bytes it was made from, and the
bytes written since, at strictly rising offsets. An offset that is not listed has never been written (log 8). -/
structure Memory where
  size : Nat
  draw : Nat
  cells : List Host.Cell
deriving DecidableEq, Repr

/-- The registers of `Type1` (10_state.md R18). -/
structure Type1 where
  ramEn : Bool
  romb5 : BitVec 5
  sec : BitVec 2
  mode : Bool
deriving DecidableEq, Repr

/-- The registers of `Type3` (10_state.md R19). -/
structure Type3 where
  ramEn : Bool
  romb7 : BitVec 7
  ramb4 : BitVec 4
deriving DecidableEq, Repr

/-- The registers of `Type5` (10_state.md R20). -/
structure Type5 where
  ramEn : Bool
  romb9 : BitVec 9
  ramb4 : BitVec 4
deriving DecidableEq, Repr

/-- The bank-switching controller, a tagged sum: each variant carries only its own registers (10_state.md R16). -/
inductive Controller where
  | none
  | type1 (r : Type1)
  | type3 (r : Type3)
  | type5 (r : Type5)
deriving DecidableEq, Repr

/-- What a transaction hands back to its caller (30_encoding.md R71, column "result"). -/
inductive Result where
  /-- The transaction returns nothing. -/
  | nothing
  | byte (b : Byte)
  | bool (b : Bool)
  /-- IRQ_RESOLVE: `None` or a source (30_encoding.md R71). -/
  | source (r : Option Source)
  /-- A bank index, an unbounded natural (30_encoding.md R71). -/
  | index (n : Nat)
  /-- An image or external-RAM offset, an unbounded natural (30_encoding.md R71). -/
  | offset (n : Nat)
  | bytes (l : List Byte)
deriving DecidableEq, Repr

/-- There is no fault: the block raises no exception, fault or trap on any transaction (60_exceptions.md R220). -/
inductive Fault where
deriving DecidableEq, Repr

/-- Why the block runs nothing. -/
inductive Refusal where
  /-- Raised by an arm of exec whose instruction has no meaning yet; no arm is such. Safe: nothing is claimed of it. -/
  | notModelled (mnemonic : String)
  /-- Raised by step on a packet that is no operation, with the decoder's reason (30_encoding.md R79(d)). Safe: the spec
  gives a reserved word no meaning and no state change. -/
  | reservedPacket (why : DecodeError)
deriving DecidableEq, Repr

/-- The state of the block (10_state.md R11), then the model's own fields. -/
structure State where
  /-- `CART`, the image; `CART_LEN` is its length (10_state.md R12). -/
  cart : List Byte
  /-- `ERAM`; `ERAM_LEN` is its size (10_state.md R13). -/
  eram : Memory
  /-- `WRAM` (10_state.md R14). -/
  wram : Memory
  /-- `HRAM` (10_state.md R15). -/
  hram : Memory
  /-- `variant` and its registers (10_state.md R16 to R21). -/
  ctrl : Controller
  /-- `IE` (10_state.md R24). -/
  ie : Byte
  /-- `IF` (10_state.md R25). -/
  ifl : Byte
  /-- `io_rem` (10_state.md R27). -/
  ioRem : Nat
  /-- `apu_rem` (10_state.md R27). -/
  apuRem : Nat
  /-- `cyc_total`, ghost (10_state.md R27). -/
  cycTotal : Nat
  /-- `io_delivered`, ghost (10_state.md R27). -/
  ioDelivered : Nat
  /-- `apu_delivered`, ghost (10_state.md R27). -/
  apuDelivered : Nat
  /-- `IOS`, external (10_state.md R28). -/
  ios : IoState
  /-- `APUS`, external (10_state.md R28). -/
  apus : ApuState
  /-- `synth_attached` (10_state.md R29): some handle when attached, the handle being the one bound last (log 13). -/
  synth : Option Handle
  /-- `SNAP`, a copy of `APUS`, or no value (10_state.md R29). -/
  snap : Option ApuState
  /-- Model's own: the OPEN parameters, which nothing changes (log 6). -/
  cfg : Cfg
  /-- Model's own: the transactions the caller has presented and the block has not run, oldest first (log 1). -/
  port : List Packet
  /-- Model's own: what the last completed transaction handed back (log 2). -/
  result : Result
  /-- Model's own: the next unused draw of unspecified bytes (log 7). -/
  draws : Nat
deriving DecidableEq, Repr

/-- The state RESET creates (70_reset_and_hazards.md R250), for given parameters, transactions still presented, and next
unused draw: the three buffers take three draws. -/
def State.created (cfg : Cfg) (port : List Packet) (draw : Nat) : State :=
  { cart := [], eram := { size := 0, draw := draw, cells := [] }
    wram := { size := Config.wramLen, draw := draw + 1, cells := [] }
    hram := { size := Config.hramLen, draw := draw + 2, cells := [] }
    ctrl := .none, ie := Config.ieReset, ifl := Config.ifReset, ioRem := 0, apuRem := 0
    cycTotal := 0, ioDelivered := 0, apuDelivered := 0, ios := Config.ios0, apus := Config.apus0
    synth := none, snap := none, cfg := cfg, port := port, result := .nothing, draws := draw + 3 }

/-- The state right after reset (10_state.md R34): nothing presented, no OPEN parameter fixed (00_scope.md R3). -/
def State.reset : State := State.created Cfg.unfixed [] 0

end Sys2Proof.Machine
end

