-- ==== Sys2Proof/Machine/Flags.lean ====
section
/-! DEFINITION. Machine/Flags.lean: the bits of `IE` and `IF` (10_state.md R26) and the priority encoder
(60_exceptions.md R226). Bits 7:5 take part in no decision. -/

namespace Sys2Proof.Machine

/-- `1 << i` (30_encoding.md R77). -/
def sourceMask (i : Source) : Byte := 1#8 <<< i.index

/-- `b | (1 << i)` (42_interrupt_ops.md R160, R162). -/
def setSource (b : Byte) (i : Source) : Byte := b ||| sourceMask i

/-- `b & ~(1 << i)`, the complement within 8 bits (42_interrupt_ops.md R161, R163). -/
def clearSource (b : Byte) (i : Source) : Byte := b &&& ~~~(sourceMask i)

/-- `IF | (q & 0x1F)` (40_bus_read_write.md R115). -/
def orRequests (ifl q : Byte) : Byte := ifl ||| (q &&& 0x1F#8)

/-- `pending5` = `IE & IF & 0x1F` (60_exceptions.md R225). -/
def pending5 (ie ifl : Byte) : Byte := ie &&& ifl &&& 0x1F#8

/-- `(IE & IF & 0x1F) != 0` (42_interrupt_ops.md R164). -/
def anyPending (ie ifl : Byte) : Bool := pending5 ie ifl != 0#8

/-- `prio` (60_exceptions.md R226): the lowest pending enabled bit. -/
def prio (ie ifl : Byte) : Option Source :=
  if pending5 ie ifl = 0#8 then none
  else if (pending5 ie ifl).getLsbD 0 then some .vblank
  else if (pending5 ie ifl).getLsbD 1 then some .lcdStat
  else if (pending5 ie ifl).getLsbD 2 then some .timer
  else if (pending5 ie ifl).getLsbD 3 then some .serial
  else some .joypad

end Sys2Proof.Machine
end

