-- ==== Sys2Proof/Machine/Operands.lean ====
section
/-! DEFINITION. Machine/Operands.lean: how a datum is cut down to a register (30_encoding.md R75), how bank indices are
assembled (R76), and how a windowed address becomes an offset (41_bank_controller.md R150, R151). -/

namespace Sys2Proof.Machine

/-! ### The datum of a control-register write (30_encoding.md R75) -/

/-- `v[3:0] == 0xA` (41_bank_controller.md R133, R137, R141). -/
def ramenOf (v : Byte) : Bool := v.setWidth 4 == 0xA#4

/-- `v[4:0]`, 0 stored as 1 (41_bank_controller.md R134). -/
def romb5Of (v : Byte) : BitVec 5 := if v.setWidth 5 = 0#5 then 1#5 else v.setWidth 5

/-- `v[1:0]` (41_bank_controller.md R135). -/
def secOf (v : Byte) : BitVec 2 := v.setWidth 2

/-- `v[0]`, `T1_MODE_BIT` = 0 (41_bank_controller.md R136). -/
def modeOf (v : Byte) : Bool := v.getLsbD 0

/-- `v[6:0]`, 0 stored as 1 (41_bank_controller.md R138). -/
def romb7Of (v : Byte) : BitVec 7 := if v.setWidth 7 = 0#7 then 1#7 else v.setWidth 7

/-- `v[3:0]` (41_bank_controller.md R139, R144; `T3_RAMB_MASK` = 0x0F). -/
def ramb4Of (v : Byte) : BitVec 4 := v.setWidth 4

/-- `(romb9 & 0x100) | v` (41_bank_controller.md R142). -/
def romb9Low (old : BitVec 9) (v : Byte) : BitVec 9 := (old &&& 0x100#9) ||| v.setWidth 9

/-- `(romb9 & 0x0FF) | (v[0] << 8)` (41_bank_controller.md R143). -/
def romb9High (old : BitVec 9) (v : Byte) : BitVec 9 := (old &&& 0x0FF#9) ||| ((v.setWidth 9 &&& 1#9) <<< 8)

/-! ### Bank functions (41_bank_controller.md R147 to R149) -/

/-- `rom_bank_eff` (41_bank_controller.md R147); `high` is `T1_HIGH_IN_MODE1`. {`sec`, `romb5`} is R76's index. -/
def Controller.romBank (high : Bool) : Controller → Nat
  | .none => 1
  | .type1 r => if r.mode = false ∨ high = true then (r.sec ++ r.romb5).toNat else r.romb5.toNat
  | .type3 r => r.romb7.toNat
  | .type5 r => r.romb9.toNat

/-- `ram_bank_eff` (41_bank_controller.md R148). -/
def Controller.ramBank : Controller → Nat
  | .none => 0
  | .type1 r => if r.mode then r.sec.toNat else 0
  | .type3 r => r.ramb4.toNat
  | .type5 r => r.ramb4.toNat

/-- `ram_enabled` (41_bank_controller.md R149). -/
def Controller.ramEnabled : Controller → Bool
  | .none => true
  | .type1 r => r.ramEn
  | .type3 r => r.ramEn
  | .type5 r => r.ramEn

/-- The variant of a controller (10_state.md R16). -/
def Controller.variant : Controller → Variant
  | .none => .none
  | .type1 _ => .type1
  | .type3 _ => .type3
  | .type5 _ => .type5

/-- The registers of a variant directly after LOAD_ROM (10_state.md R35). -/
def Controller.initial : Variant → Controller
  | .none => .none
  | .type1 => .type1 { ramEn := false, romb5 := 1#5, sec := 0#2, mode := false }
  | .type3 => .type3 { ramEn := false, romb7 := 1#7, ramb4 := 0#4 }
  | .type5 => .type5 { ramEn := false, romb9 := 1#9, ramb4 := 0#4 }

/-! ### Offsets, in unbounded naturals (41_bank_controller.md R154) -/

/-- The image offset behind an address of the switchable window (41_bank_controller.md R150). -/
def romxOffset (bank : Nat) (a : Addr) : Nat := bank * 0x4000 + (a - 0x4000#16).toNat

/-- The external-RAM offset behind an address of the RAM window (40_bus_read_write.md R104, R116). -/
def eramOffset (bank : Nat) (a : Addr) : Nat := bank * 0x2000 + (a - 0xA000#16).toNat

/-- `XLAT_ROM` (41_bank_controller.md R150); the last line only makes it total (the spec's decision D31). -/
def xlatRomOffset (bank : Nat) (a : Addr) : Nat :=
  if a.toNat ≤ 0x3FFF then a.toNat
  else if a.toNat ≤ 0x7FFF then romxOffset bank a
  else bank * 0x4000 + (a.setWidth 14).toNat

/-- `XLAT_RAM` (41_bank_controller.md R151): `addr[12:0]` within the bank. -/
def xlatRamOffset (bank : Nat) (a : Addr) : Nat := bank * 0x2000 + (a.setWidth 13).toNat

/-- The offset of an address in work RAM (10_state.md R14). -/
def wramOffset (a : Addr) : Nat := (a - 0xC000#16).toNat

/-- The offset of an address in high RAM (10_state.md R15). -/
def hramOffset (a : Addr) : Nat := (a - 0xFF80#16).toNat

end Sys2Proof.Machine
end

