-- ==== Sys2Proof/Machine/Ops.lean ====
section
/-! DEFINITION. Machine/Ops.lean: the named operations over memory and state that the meanings call: buffers, the bus
read and write with their collaborator calls (40_bus_read_write.md), control-register writes (41_bank_controller.md R131),
the publish point (44 R207), the callbacks of `io_step` (43 R188), fetching a presented transaction.
TAKING AN EXCEPTION: the block has none to take and none to return from (60_exceptions.md R220, R228, R230); its part in
interrupt entry is `prio` and `clearSource`. -/

namespace Sys2Proof.Machine

/-! ### Buffers -/

/-- The byte listed at an offset, or none: never written. -/
def cellsGet : List Host.Cell → Nat → Option Byte
  | [], _ => none
  | c :: cs, i => if c.1 = i then some c.2 else cellsGet cs i

/-- List a byte at an offset, keeping the offsets strictly rising. -/
def cellsSet : List Host.Cell → Nat → Byte → List Host.Cell
  | [], i, v => [(i, v)]
  | c :: cs, i, v =>
    if i < c.1 then (i, v) :: c :: cs
    else if i = c.1 then (i, v) :: cs
    else c :: cellsSet cs i v

/-- Every listed offset is at least `lo` and below `size`, and offsets rise strictly. -/
def cellsWf (size : Nat) : (lo : Nat) → List Host.Cell → Bool
  | _, [] => true
  | lo, c :: cs => decide (lo ≤ c.1 ∧ c.1 < size) && cellsWf size (c.1 + 1) cs

/-- The canonical form of a buffer: listed offsets rise strictly and lie inside it (log 8). -/
def Memory.wf (m : Memory) : Bool := cellsWf m.size 0 m.cells

/-- What an offset that was never written reads as: the unspecified byte of this buffer's draw (10_state.md R34; log 7). -/
def Memory.unlisted (m : Memory) (i : Nat) : Byte := Config.ramInit m.draw i

/-- Read a byte; an offset beyond the buffer reads the fill byte (20_memory.md R49). -/
def Memory.read (m : Memory) (i : Nat) : Byte :=
  if i < m.size then (cellsGet m.cells i).getD (m.unlisted i) else Config.fill

/-- Write a byte; an offset beyond the buffer is dropped (20_memory.md R49). -/
def Memory.write (m : Memory) (i : Nat) (v : Byte) : Memory :=
  if i < m.size then { m with cells := cellsSet m.cells i v } else m

/-- A buffer of unspecified bytes. -/
def Memory.fresh (size draw : Nat) : Memory := { size := size, draw := draw, cells := [] }

/-- Read the image; an offset beyond it reads the fill byte (20_memory.md R49). -/
def cartRead (cart : List Byte) (off : Nat) : Byte := cart.getD off Config.fill

/-! ### Single-field updates (their lemmas: Laws/State.lean) -/

/-- Hand a result back to the caller (00_scope.md R6). -/
def State.answer (s : State) (r : Result) : State := { s with result := r }

def State.setIe (s : State) (b : Byte) : State := { s with ie := b }

def State.setIfl (s : State) (b : Byte) : State := { s with ifl := b }

def State.setCtrl (s : State) (c : Controller) : State := { s with ctrl := c }

def State.setEram (s : State) (m : Memory) : State := { s with eram := m }

def State.setWram (s : State) (m : Memory) : State := { s with wram := m }

def State.setHram (s : State) (m : Memory) : State := { s with hram := m }

def State.setIos (s : State) (x : IoState) : State := { s with ios := x }

def State.setApus (s : State) (x : ApuState) : State := { s with apus := x }

def State.setSnap (s : State) (x : Option ApuState) : State := { s with snap := x }

/-! ### The controller -/

/-- `rom_bank_eff` of a state (41_bank_controller.md R147). -/
def State.romBank (s : State) : Nat := s.ctrl.romBank s.cfg.t1HighInMode1

/-- `synth_attached` (10_state.md R29). -/
def State.synthAttached (s : State) : Bool := s.synth.isSome

/-- Change the registers of a `Type1` controller; under another variant there are none (10_state.md R16; log 4). -/
def Controller.onType1 (f : Type1 → Type1) : Controller → Controller
  | .none => .none
  | .type1 r => .type1 (f r)
  | .type3 r => .type3 r
  | .type5 r => .type5 r

/-- Change the registers of a `Type3` controller; under another variant there are none (10_state.md R16; log 4). -/
def Controller.onType3 (f : Type3 → Type3) : Controller → Controller
  | .none => .none
  | .type1 r => .type1 r
  | .type3 r => .type3 (f r)
  | .type5 r => .type5 r

/-- Change the registers of a `Type5` controller; under another variant there are none (10_state.md R16; log 4). -/
def Controller.onType5 (f : Type5 → Type5) : Controller → Controller
  | .none => .none
  | .type1 r => .type1 r
  | .type3 r => .type3 r
  | .type5 r => .type5 (f r)

/-- `T1.RAMEN` (41_bank_controller.md R133). -/
def Type1.ramen (v : Byte) (r : Type1) : Type1 := { r with ramEn := ramenOf v }

/-- `T1.ROMB` (41_bank_controller.md R134). -/
def Type1.romb (v : Byte) (r : Type1) : Type1 := { r with romb5 := romb5Of v }

/-- `T1.SEC` (41_bank_controller.md R135). -/
def Type1.setSec (v : Byte) (r : Type1) : Type1 := { r with sec := secOf v }

/-- `T1.MODE` (41_bank_controller.md R136). -/
def Type1.setMode (v : Byte) (r : Type1) : Type1 := { r with mode := modeOf v }

/-- `T3.RAMEN` (41_bank_controller.md R137). -/
def Type3.ramen (v : Byte) (r : Type3) : Type3 := { r with ramEn := ramenOf v }

/-- `T3.ROMB` (41_bank_controller.md R138). -/
def Type3.romb (v : Byte) (r : Type3) : Type3 := { r with romb7 := romb7Of v }

/-- `T3.RAMB` (41_bank_controller.md R139). -/
def Type3.ramb (v : Byte) (r : Type3) : Type3 := { r with ramb4 := ramb4Of v }

/-- `T5.RAMEN` (41_bank_controller.md R141). -/
def Type5.ramen (v : Byte) (r : Type5) : Type5 := { r with ramEn := ramenOf v }

/-- `T5.ROMB_LO` (41_bank_controller.md R142). -/
def Type5.rombLo (v : Byte) (r : Type5) : Type5 := { r with romb9 := romb9Low r.romb9 v }

/-- `T5.ROMB_HI` (41_bank_controller.md R143). -/
def Type5.rombHi (v : Byte) (r : Type5) : Type5 := { r with romb9 := romb9High r.romb9 v }

/-- `T5.RAMB` (41_bank_controller.md R144). -/
def Type5.ramb (v : Byte) (r : Type5) : Type5 := { r with ramb4 := ramb4Of v }

/-- A control-register write of `Type1`, by `addr[15:13]` (41_bank_controller.md R131). -/
def Type1.control (a : Addr) (v : Byte) (r : Type1) : Type1 :=
  if a.toNat ≤ 0x1FFF then r.ramen v
  else if a.toNat ≤ 0x3FFF then r.romb v
  else if a.toNat ≤ 0x5FFF then r.setSec v
  else r.setMode v

/-- A control-register write of `Type3` (41_bank_controller.md R131); `T3.LATCH` has no effect (R140). -/
def Type3.control (a : Addr) (v : Byte) (r : Type3) : Type3 :=
  if a.toNat ≤ 0x1FFF then r.ramen v
  else if a.toNat ≤ 0x3FFF then r.romb v
  else if a.toNat ≤ 0x5FFF then r.ramb v
  else r

/-- A control-register write of `Type5` (41_bank_controller.md R131); `T5.RSVD` has no effect (R145). -/
def Type5.control (a : Addr) (v : Byte) (r : Type5) : Type5 :=
  if a.toNat ≤ 0x1FFF then r.ramen v
  else if a.toNat ≤ 0x2FFF then r.rombLo v
  else if a.toNat ≤ 0x3FFF then r.rombHi v
  else if a.toNat ≤ 0x5FFF then r.ramb v
  else r

/-- `MBC_WRITE` on the controller (41_bank_controller.md R131); `NONE.CTRL` has no effect (R132). -/
def Controller.write (a : Addr) (v : Byte) (c : Controller) : Controller :=
  if a.toNat ≤ 0x7FFF then
    match c with
    | .none => .none
    | .type1 r => .type1 (r.control a v)
    | .type3 r => .type3 (r.control a v)
    | .type5 r => .type5 (r.control a v)
  else c

/-- `MBC_WRITE addr, v` (41_bank_controller.md R131). -/
def mbcWrite (s : State) (a : Addr) (v : Byte) : State := s.setCtrl (s.ctrl.write a v)

/-- `MBC_READ addr` (41_bank_controller.md R152). -/
def mbcRead (s : State) (a : Addr) : Byte :=
  if a.toNat ≤ 0x7FFF then cartRead s.cart (xlatRomOffset s.romBank a) else Config.fill

/-! ### Publish, collaborator accesses -/

/-- `publish()` (44_cartridge_and_passthrough.md R207). -/
def publish (s : State) : State := if s.synthAttached then s.setSnap (some s.apus) else s

/-- An access of the I/O collaborator's ranges for reading (40_bus_read_write.md R103, R107, R108). -/
def ioReadAt (s : State) (a : Addr) : Byte × State :=
  ((Config.ioRead s.ios a).1, s.setIos (Config.ioRead s.ios a).2)

/-- An access of the I/O collaborator's ranges for writing; its request mask is OR-ed into `IF[4:0]`
(40_bus_read_write.md R115, R119, R120). -/
def ioWriteAt (s : State) (a : Addr) (v : Byte) : State :=
  (s.setIos (Config.ioWrite s.ios a v).1).setIfl (orRequests s.ifl (Config.ioWrite s.ios a v).2)

/-- An access of the sound registers for reading (40_bus_read_write.md R110). -/
def apuReadAt (s : State) (a : Addr) : Byte × State :=
  ((Config.apuRead s.apus a).1, s.setApus (Config.apuRead s.apus a).2)

/-- An access of the sound registers for writing, then a publish (40_bus_read_write.md R122). -/
def apuWriteAt (s : State) (a : Addr) (v : Byte) : State := publish (s.setApus (Config.apuWrite s.apus a v))

/-! ### The bus-owned regions -/

/-- `RD.ROM0` (40_bus_read_write.md R101). -/
def readRom0 (s : State) (a : Addr) : Byte := cartRead s.cart a.toNat

/-- `RD.ROMX` (40_bus_read_write.md R102). -/
def readRomx (s : State) (a : Addr) : Byte := cartRead s.cart (romxOffset s.romBank a)

/-- `RD.ERAM` (40_bus_read_write.md R104). -/
def readEram (s : State) (a : Addr) : Byte :=
  if s.ctrl.ramEnabled then s.eram.read (eramOffset s.ctrl.ramBank a) else Config.fill

/-- `WR.ERAM` (40_bus_read_write.md R116). -/
def writeEram (s : State) (a : Addr) (v : Byte) : State :=
  if s.ctrl.ramEnabled then s.setEram (s.eram.write (eramOffset s.ctrl.ramBank a) v) else s

/-- `RD.WRAM` (40_bus_read_write.md R105). -/
def readWram (s : State) (a : Addr) : Byte := s.wram.read (wramOffset a)

/-- `WR.WRAM` (40_bus_read_write.md R117). -/
def writeWram (s : State) (a : Addr) (v : Byte) : State := s.setWram (s.wram.write (wramOffset a) v)

/-- `RD.HRAM` (40_bus_read_write.md R111). -/
def readHram (s : State) (a : Addr) : Byte := s.hram.read (hramOffset a)

/-- `WR.HRAM` (40_bus_read_write.md R123). -/
def writeHram (s : State) (a : Addr) (v : Byte) : State := s.setHram (s.hram.write (hramOffset a) v)

/-! ### The bus -/

/-- The bus read: the byte and the state after it (40_bus_read_write.md R100). -/
def busRead (s : State) (a : Addr) : Byte × State :=
  match regionOf s.cfg.ifAddr a with
  | .rom0 => (readRom0 s a, s)
  | .romx => (readRomx s a, s)
  | .vram => ioReadAt s a
  | .eram => (readEram s a, s)
  | .wram => (readWram s a, s)
  | .unmapped => (Config.fill, s)
  | .oam => ioReadAt s a
  | .io => ioReadAt s a
  | .ifl => (s.ifl, s)
  | .apu => apuReadAt s a
  | .hram => (readHram s a, s)
  | .ie => (s.ie, s)

/-- The byte a bus read returns. -/
def busByte (s : State) (a : Addr) : Byte := (busRead s a).1

/-- The bus write (40_bus_read_write.md R113). -/
def busWrite (s : State) (a : Addr) (v : Byte) : State :=
  match regionOf s.cfg.ifAddr a with
  | .rom0 => mbcWrite s a v
  | .romx => mbcWrite s a v
  | .vram => ioWriteAt s a v
  | .eram => writeEram s a v
  | .wram => writeWram s a v
  | .unmapped => s
  | .oam => ioWriteAt s a v
  | .io => ioWriteAt s a v
  | .ifl => s.setIfl v
  | .apu => apuWriteAt s a v
  | .hram => writeHram s a v
  | .ie => s.setIe v

/-! ### One `io_step` call -/

/-- Answer the callbacks of one `io_step` call in the order issued, each finished before the next, and take over the
collaborator's new state (43_step_coordinator.md R188). -/
def runIo {p : Addr} : IoProg p → State → State
  | .done x, s => s.setIos x
  | .read a k, s => runIo (k (busByte s a.addr)) (busRead s a.addr).2
  | .write a v k, s => runIo k (busWrite s a.addr v)
  | .irq i k, s => runIo k (s.setIfl (setSource s.ifl i))

/-! ### How a meaning ends, and how a transaction is fetched -/

/-- End a reading operation: the byte goes to the caller. -/
def readDone (r : Byte × State) : Host.Outcome State Fault Refusal := .next (r.2.answer (.byte r.1))

/-- End an operation that returns nothing. -/
def writeDone (s : State) : Host.Outcome State Fault Refusal := .next (s.answer .nothing)

/-- The oldest presented transaction and the state without it (20_memory.md R52; log 1). -/
def fetch (s : State) : Option (Packet × State) :=
  match s.port with
  | [] => none
  | p :: rest => some (p, { s with port := rest })

/-- Present a transaction before all others (log 1). -/
def present (s : State) (p : Packet) : State := { s with port := p :: s.port }

/-- The same block built with `IF_ADDR` where spec/opcode_table.json puts it (30_encoding.md R73; log 6). -/
def State.atTableIfAddr (s : State) : State :=
  { s with cfg := { s.cfg with ifAddr := tableIfAddr, ifAddrOk := tableIfAddr_allowed } }

/-- What the host's audio thread sees: the whole snapshot (20_memory.md R55, 70_reset_and_hazards.md R256). -/
def audioView (s : State) : Option ApuState := s.snap

end Sys2Proof.Machine
end

