-- ==== Sys2Proof/Machine/Bus.lean ====
section
/-! DEFINITION. Machine/Bus.lean: `RD` and `WR` and the sub-operations of format `A` (40_bus_read_write.md R100 to R124).
A sub-operation's address lies in its region (WellFormed); its meaning is what `RD` or `WR` of that address does. -/

namespace Sys2Proof.Machine

/-- `RD addr` (40_bus_read_write.md R100). -/
def execRd (a : Addr) (s : State) : Host.Outcome State Fault Refusal := readDone (busRead s a)

/-- `WR addr, data` (40_bus_read_write.md R113). -/
def execWr (a : Addr) (v : Byte) (s : State) : Host.Outcome State Fault Refusal := writeDone (busWrite s a v)

/-- `RD.ROM0` (40_bus_read_write.md R101). -/
def execRdRom0 (a : Addr) (s : State) : Host.Outcome State Fault Refusal := readDone (readRom0 s a, s)

/-- `RD.ROMX` (40_bus_read_write.md R102). -/
def execRdRomx (a : Addr) (s : State) : Host.Outcome State Fault Refusal := readDone (readRomx s a, s)

/-- `RD.VRAM` (40_bus_read_write.md R103). -/
def execRdVram (a : Addr) (s : State) : Host.Outcome State Fault Refusal := readDone (ioReadAt s a)

/-- `RD.ERAM` (40_bus_read_write.md R104). -/
def execRdEram (a : Addr) (s : State) : Host.Outcome State Fault Refusal := readDone (readEram s a, s)

/-- `RD.WRAM` (40_bus_read_write.md R105). -/
def execRdWram (a : Addr) (s : State) : Host.Outcome State Fault Refusal := readDone (readWram s a, s)

/-- `RD.UNMAPPED` (40_bus_read_write.md R106): the fill byte at every address of the holes. -/
def execRdUnmapped (_ : Addr) (s : State) : Host.Outcome State Fault Refusal := readDone (Config.fill, s)

/-- `RD.OAM` (40_bus_read_write.md R107). -/
def execRdOam (a : Addr) (s : State) : Host.Outcome State Fault Refusal := readDone (ioReadAt s a)

/-- `RD.IO` (40_bus_read_write.md R108). -/
def execRdIo (a : Addr) (s : State) : Host.Outcome State Fault Refusal := readDone (ioReadAt s a)

/-- `RD.IF` (40_bus_read_write.md R109). -/
def execRdIf (s : State) : Host.Outcome State Fault Refusal := readDone (s.ifl, s)

/-- `RD.APU` (40_bus_read_write.md R110). -/
def execRdApu (a : Addr) (s : State) : Host.Outcome State Fault Refusal := readDone (apuReadAt s a)

/-- `RD.HRAM` (40_bus_read_write.md R111). -/
def execRdHram (a : Addr) (s : State) : Host.Outcome State Fault Refusal := readDone (readHram s a, s)

/-- `RD.IE` (40_bus_read_write.md R112). -/
def execRdIe (s : State) : Host.Outcome State Fault Refusal := readDone (s.ie, s)

/-- `WR.MBC` (40_bus_read_write.md R114). -/
def execWrMbc (a : Addr) (v : Byte) (s : State) : Host.Outcome State Fault Refusal := writeDone (mbcWrite s a v)

/-- `WR.VRAM` (40_bus_read_write.md R115). -/
def execWrVram (a : Addr) (v : Byte) (s : State) : Host.Outcome State Fault Refusal := writeDone (ioWriteAt s a v)

/-- `WR.ERAM` (40_bus_read_write.md R116). -/
def execWrEram (a : Addr) (v : Byte) (s : State) : Host.Outcome State Fault Refusal := writeDone (writeEram s a v)

/-- `WR.WRAM` (40_bus_read_write.md R117). -/
def execWrWram (a : Addr) (v : Byte) (s : State) : Host.Outcome State Fault Refusal := writeDone (writeWram s a v)

/-- `WR.UNMAPPED` (40_bus_read_write.md R118): dropped at every address of the holes. -/
def execWrUnmapped (_ : Addr) (_ : Byte) (s : State) : Host.Outcome State Fault Refusal := writeDone s

/-- `WR.OAM` (40_bus_read_write.md R119). -/
def execWrOam (a : Addr) (v : Byte) (s : State) : Host.Outcome State Fault Refusal := writeDone (ioWriteAt s a v)

/-- `WR.IO` (40_bus_read_write.md R120). -/
def execWrIo (a : Addr) (v : Byte) (s : State) : Host.Outcome State Fault Refusal := writeDone (ioWriteAt s a v)

/-- `WR.IF` (40_bus_read_write.md R121). -/
def execWrIf (v : Byte) (s : State) : Host.Outcome State Fault Refusal := writeDone (s.setIfl v)

/-- `WR.APU` (40_bus_read_write.md R122). -/
def execWrApu (a : Addr) (v : Byte) (s : State) : Host.Outcome State Fault Refusal := writeDone (apuWriteAt s a v)

/-- `WR.HRAM` (40_bus_read_write.md R123). -/
def execWrHram (a : Addr) (v : Byte) (s : State) : Host.Outcome State Fault Refusal := writeDone (writeHram s a v)

/-- `WR.IE` (40_bus_read_write.md R124). -/
def execWrIe (v : Byte) (s : State) : Host.Outcome State Fault Refusal := writeDone (s.setIe v)

end Sys2Proof.Machine
end

