-- ==== Sys2Proof/Machine/Control.lean ====
section
/-! DEFINITION. Machine/Control.lean: the controller's operations (41_bank_controller.md R130 to R152). The sub-operations
of format `M` are reached under their own variant; under another there is no register to write (log 4). -/

namespace Sys2Proof.Machine

/-- `NONE.CTRL` (41_bank_controller.md R132): no control-register write has effect. -/
def execNoneCtrl (_ : Addr) (_ : Byte) (s : State) : Host.Outcome State Fault Refusal := writeDone s

/-- `T1.RAMEN` (41_bank_controller.md R133). -/
def execT1Ramen (_ : Addr) (v : Byte) (s : State) : Host.Outcome State Fault Refusal :=
  writeDone (s.setCtrl (s.ctrl.onType1 (Type1.ramen v)))

/-- `T1.ROMB` (41_bank_controller.md R134). -/
def execT1Romb (_ : Addr) (v : Byte) (s : State) : Host.Outcome State Fault Refusal :=
  writeDone (s.setCtrl (s.ctrl.onType1 (Type1.romb v)))

/-- `T1.SEC` (41_bank_controller.md R135). -/
def execT1Sec (_ : Addr) (v : Byte) (s : State) : Host.Outcome State Fault Refusal :=
  writeDone (s.setCtrl (s.ctrl.onType1 (Type1.setSec v)))

/-- `T1.MODE` (41_bank_controller.md R136). -/
def execT1Mode (_ : Addr) (v : Byte) (s : State) : Host.Outcome State Fault Refusal :=
  writeDone (s.setCtrl (s.ctrl.onType1 (Type1.setMode v)))

/-- `T3.RAMEN` (41_bank_controller.md R137). -/
def execT3Ramen (_ : Addr) (v : Byte) (s : State) : Host.Outcome State Fault Refusal :=
  writeDone (s.setCtrl (s.ctrl.onType3 (Type3.ramen v)))

/-- `T3.ROMB` (41_bank_controller.md R138). -/
def execT3Romb (_ : Addr) (v : Byte) (s : State) : Host.Outcome State Fault Refusal :=
  writeDone (s.setCtrl (s.ctrl.onType3 (Type3.romb v)))

/-- `T3.RAMB` (41_bank_controller.md R139). -/
def execT3Ramb (_ : Addr) (v : Byte) (s : State) : Host.Outcome State Fault Refusal :=
  writeDone (s.setCtrl (s.ctrl.onType3 (Type3.ramb v)))

/-- `T3.LATCH` (41_bank_controller.md R140): nothing. -/
def execT3Latch (_ : Addr) (_ : Byte) (s : State) : Host.Outcome State Fault Refusal := writeDone s

/-- `T5.RAMEN` (41_bank_controller.md R141). -/
def execT5Ramen (_ : Addr) (v : Byte) (s : State) : Host.Outcome State Fault Refusal :=
  writeDone (s.setCtrl (s.ctrl.onType5 (Type5.ramen v)))

/-- `T5.ROMB_LO` (41_bank_controller.md R142). -/
def execT5RombLo (_ : Addr) (v : Byte) (s : State) : Host.Outcome State Fault Refusal :=
  writeDone (s.setCtrl (s.ctrl.onType5 (Type5.rombLo v)))

/-- `T5.ROMB_HI` (41_bank_controller.md R143). -/
def execT5RombHi (_ : Addr) (v : Byte) (s : State) : Host.Outcome State Fault Refusal :=
  writeDone (s.setCtrl (s.ctrl.onType5 (Type5.rombHi v)))

/-- `T5.RAMB` (41_bank_controller.md R144). -/
def execT5Ramb (_ : Addr) (v : Byte) (s : State) : Host.Outcome State Fault Refusal :=
  writeDone (s.setCtrl (s.ctrl.onType5 (Type5.ramb v)))

/-- `T5.RSVD` (41_bank_controller.md R145): nothing. -/
def execT5Rsvd (_ : Addr) (_ : Byte) (s : State) : Host.Outcome State Fault Refusal := writeDone s

/-- `CUR_ROM_BANK` (41_bank_controller.md R147). -/
def execCurRomBank (s : State) : Host.Outcome State Fault Refusal := .next (s.answer (.index s.romBank))

/-- `XLAT_ROM` (41_bank_controller.md R150). -/
def execXlatRom (a : Addr) (s : State) : Host.Outcome State Fault Refusal :=
  .next (s.answer (.offset (xlatRomOffset s.romBank a)))

/-- `XLAT_RAM` (41_bank_controller.md R151). -/
def execXlatRam (a : Addr) (s : State) : Host.Outcome State Fault Refusal :=
  .next (s.answer (.offset (xlatRamOffset s.ctrl.ramBank a)))

/-- `MBC_READ` (41_bank_controller.md R152). -/
def execMbcRead (a : Addr) (s : State) : Host.Outcome State Fault Refusal := readDone (mbcRead s a, s)

/-- `MBC_WRITE` (41_bank_controller.md R131). -/
def execMbcWrite (a : Addr) (v : Byte) (s : State) : Host.Outcome State Fault Refusal := writeDone (mbcWrite s a v)

end Sys2Proof.Machine
end

