-- ==== Sys2Proof/Machine/Coordinator.lean ====
section
/-! DEFINITION. Machine/Coordinator.lean: the stepping coordinator, STEP (43_step_coordinator.md R180 to R191). -/

namespace Sys2Proof.Machine

/-- The loop of `chunks` with a bound on its turns; each turn takes at least 1, so `n` turns are enough. -/
def chunksLoop : (turns remaining max : Nat) → List Nat
  | 0, _, _ => []
  | k + 1, rem, m => if rem = 0 then [] else min rem m :: chunksLoop k (rem - min rem m) m

/-- `chunks(n, M)` (43_step_coordinator.md R181). -/
def chunks (n m : Nat) : List Nat := chunksLoop n n m

/-- One `io_step` call with its callbacks, counted (43_step_coordinator.md R180, R182). -/
def ioAdvance (s : State) (c : Nat) : State :=
  let t := runIo (Config.ioStep s.cfg.ifAddr s.ios c) s
  { t with ioDelivered := t.ioDelivered + c }

/-- One `apu_step` call, counted (43_step_coordinator.md R180, R183). -/
def apuAdvance (s : State) (c : Nat) : State :=
  { s with apus := Config.apuStep s.apus c, apuDelivered := s.apuDelivered + c }

/-- Part 1 of STEP: the I/O collaborator, all of it (43_step_coordinator.md R180, R185). -/
def ioPart (s : State) (n : Nat) : State :=
  (chunks ((s.ioRem + n) / Config.ioDiv) s.cfg.ioChunkMax.val).foldl ioAdvance
    { s with ioRem := (s.ioRem + n) % Config.ioDiv }

/-- Part 2 of STEP: the audio collaborator, all of it (43_step_coordinator.md R180, R185). -/
def apuPart (s : State) (n : Nat) : State :=
  (chunks ((s.apuRem + n) / Config.apuDiv) s.cfg.apuChunkMax.val).foldl apuAdvance
    { s with apuRem := (s.apuRem + n) % Config.apuDiv }

/-- The effect of STEP: count, I/O, then audio, then one publish (43_step_coordinator.md R180, R184, R189). -/
def advance (s : State) (n : Nat) : State :=
  publish (apuPart (ioPart { s with cycTotal := s.cycTotal + n } n) n)

/-- `STEP cycles` (43_step_coordinator.md R180). -/
def execStep (cycles : Cycles) (s : State) : Host.Outcome State Fault Refusal := writeDone (advance s cycles.toNat)

end Sys2Proof.Machine
end

