-- ==== Sys2Proof/Machine/Interrupt.lean ====
section
/-! DEFINITION. Machine/Interrupt.lean: the interrupt controller's operations (42_interrupt_ops.md R160 to R168). -/

namespace Sys2Proof.Machine

/-- `GET_IE_RAW` (42_interrupt_ops.md R166). -/
def execGetIeRaw (s : State) : Host.Outcome State Fault Refusal := readDone (s.ie, s)

/-- `GET_IF_RAW` (42_interrupt_ops.md R167). -/
def execGetIfRaw (s : State) : Host.Outcome State Fault Refusal := readDone (s.ifl, s)

/-- `SET_IF_RAW` (42_interrupt_ops.md R168). -/
def execSetIfRaw (v : Byte) (s : State) : Host.Outcome State Fault Refusal := writeDone (s.setIfl v)

/-- `IRQ_ENABLE` (42_interrupt_ops.md R160). -/
def execIrqEnable (i : Source) (s : State) : Host.Outcome State Fault Refusal := writeDone (s.setIe (setSource s.ie i))

/-- `IRQ_DISABLE` (42_interrupt_ops.md R161). -/
def execIrqDisable (i : Source) (s : State) : Host.Outcome State Fault Refusal := writeDone (s.setIe (clearSource s.ie i))

/-- `IRQ_REQUEST` (42_interrupt_ops.md R162). -/
def execIrqRequest (i : Source) (s : State) : Host.Outcome State Fault Refusal :=
  writeDone (s.setIfl (setSource s.ifl i))

/-- `IRQ_CLEAR` (42_interrupt_ops.md R163). -/
def execIrqClear (i : Source) (s : State) : Host.Outcome State Fault Refusal :=
  writeDone (s.setIfl (clearSource s.ifl i))

/-- `IRQ_ANY` (42_interrupt_ops.md R164). -/
def execIrqAny (s : State) : Host.Outcome State Fault Refusal := .next (s.answer (.bool (anyPending s.ie s.ifl)))

/-- `IRQ_RESOLVE` (42_interrupt_ops.md R165). -/
def execIrqResolve (s : State) : Host.Outcome State Fault Refusal := .next (s.answer (.source (prio s.ie s.ifl)))

end Sys2Proof.Machine
end

