-- ==== Sys2Proof/Machine/System.lean ====
section
/-! DEFINITION. Machine/System.lean: cartridge load, reset, the audio snapshot and the pass-through operations
(44_cartridge_and_passthrough.md R200 to R210, 70_reset_and_hazards.md R250). -/

namespace Sys2Proof.Machine

/-- `LOAD_ROM` (44_cartridge_and_passthrough.md R200 to R203, R205): the external RAM is a fresh buffer. -/
def execLoadRom (image : List Byte) (s : State) : Host.Outcome State Fault Refusal :=
  writeDone { s with
    cart := image
    eram := Memory.fresh (deriveEramLen image) s.draws
    ctrl := Controller.initial (deriveVariant image)
    draws := s.draws + 1 }

/-- `RESET` (70_reset_and_hazards.md R250): the creation state, with the parameters, the transactions still presented
and the next draws of unspecified bytes (log 14). -/
def execReset (s : State) : Host.Outcome State Fault Refusal := writeDone (State.created s.cfg s.port s.draws)

/-- `ATTACH_SYNTH` (44_cartridge_and_passthrough.md R206): bind the handle and publish at once. -/
def execAttachSynth (h : Handle) (s : State) : Host.Outcome State Fault Refusal :=
  writeDone { s with synth := some h, snap := some s.apus }

/-- `io_framebuffer`: 23040 bytes, each a 2-bit shade (10_state.md R28, 44_cartridge_and_passthrough.md R208). -/
def frameBytes (x : IoState) : List Byte := (List.range Config.fbLen).map fun k => (Config.ioShade x k).setWidth 8

/-- `FRAMEBUFFER` (44_cartridge_and_passthrough.md R208). -/
def execFramebuffer (s : State) : Host.Outcome State Fault Refusal := .next (s.answer (.bytes (frameBytes s.ios)))

/-- `IS_DMA_ACTIVE` (44_cartridge_and_passthrough.md R209). -/
def execIsDmaActive (s : State) : Host.Outcome State Fault Refusal :=
  .next (s.answer (.bool (Config.ioIsDmaActive s.ios)))

/-- `JOYPAD_INJECT` (44_cartridge_and_passthrough.md R210). -/
def execJoypadInject (j : Byte) (s : State) : Host.Outcome State Fault Refusal :=
  writeDone (s.setIos (Config.ioJoypad s.ios j))

end Sys2Proof.Machine
end

