-- ==== Sys2Proof/Machine/Dispatch.lean ====
section
/-! DEFINITION. Machine/Dispatch.lean: exec, one arm per operation, each one direct call of its meaning. -/

namespace Sys2Proof.Machine

def exec (i : Instr) (s : State) : Host.Outcome State Fault Refusal :=
  match i with
  | .rdRom0 a => Sys2Proof.Machine.execRdRom0 a s
  | .rdRomx a => Sys2Proof.Machine.execRdRomx a s
  | .rdVram a => Sys2Proof.Machine.execRdVram a s
  | .rdEram a => Sys2Proof.Machine.execRdEram a s
  | .rdWram a => Sys2Proof.Machine.execRdWram a s
  | .rdUnmapped a => Sys2Proof.Machine.execRdUnmapped a s
  | .rdOam a => Sys2Proof.Machine.execRdOam a s
  | .rdIo a => Sys2Proof.Machine.execRdIo a s
  | .rdIf => Sys2Proof.Machine.execRdIf s
  | .rdApu a => Sys2Proof.Machine.execRdApu a s
  | .rdHram a => Sys2Proof.Machine.execRdHram a s
  | .rdIe => Sys2Proof.Machine.execRdIe s
  | .wrMbc a v => Sys2Proof.Machine.execWrMbc a v s
  | .wrVram a v => Sys2Proof.Machine.execWrVram a v s
  | .wrEram a v => Sys2Proof.Machine.execWrEram a v s
  | .wrWram a v => Sys2Proof.Machine.execWrWram a v s
  | .wrUnmapped a v => Sys2Proof.Machine.execWrUnmapped a v s
  | .wrOam a v => Sys2Proof.Machine.execWrOam a v s
  | .wrIo a v => Sys2Proof.Machine.execWrIo a v s
  | .wrIf v => Sys2Proof.Machine.execWrIf v s
  | .wrApu a v => Sys2Proof.Machine.execWrApu a v s
  | .wrHram a v => Sys2Proof.Machine.execWrHram a v s
  | .wrIe v => Sys2Proof.Machine.execWrIe v s
  | .noneCtrl a v => Sys2Proof.Machine.execNoneCtrl a v s
  | .t1Ramen a v => Sys2Proof.Machine.execT1Ramen a v s
  | .t1Romb a v => Sys2Proof.Machine.execT1Romb a v s
  | .t1Sec a v => Sys2Proof.Machine.execT1Sec a v s
  | .t1Mode a v => Sys2Proof.Machine.execT1Mode a v s
  | .t3Ramen a v => Sys2Proof.Machine.execT3Ramen a v s
  | .t3Romb a v => Sys2Proof.Machine.execT3Romb a v s
  | .t3Ramb a v => Sys2Proof.Machine.execT3Ramb a v s
  | .t3Latch a v => Sys2Proof.Machine.execT3Latch a v s
  | .t5Ramen a v => Sys2Proof.Machine.execT5Ramen a v s
  | .t5RombLo a v => Sys2Proof.Machine.execT5RombLo a v s
  | .t5RombHi a v => Sys2Proof.Machine.execT5RombHi a v s
  | .t5Ramb a v => Sys2Proof.Machine.execT5Ramb a v s
  | .t5Rsvd a v => Sys2Proof.Machine.execT5Rsvd a v s
  | .rd a => Sys2Proof.Machine.execRd a s
  | .wr a v => Sys2Proof.Machine.execWr a v s
  | .step cycles => Sys2Proof.Machine.execStep cycles s
  | .loadRom image => Sys2Proof.Machine.execLoadRom image s
  | .reset => Sys2Proof.Machine.execReset s
  | .getIeRaw => Sys2Proof.Machine.execGetIeRaw s
  | .getIfRaw => Sys2Proof.Machine.execGetIfRaw s
  | .setIfRaw v => Sys2Proof.Machine.execSetIfRaw v s
  | .irqEnable k => Sys2Proof.Machine.execIrqEnable k s
  | .irqDisable k => Sys2Proof.Machine.execIrqDisable k s
  | .irqRequest k => Sys2Proof.Machine.execIrqRequest k s
  | .irqClear k => Sys2Proof.Machine.execIrqClear k s
  | .irqAny => Sys2Proof.Machine.execIrqAny s
  | .irqResolve => Sys2Proof.Machine.execIrqResolve s
  | .curRomBank => Sys2Proof.Machine.execCurRomBank s
  | .xlatRom a => Sys2Proof.Machine.execXlatRom a s
  | .xlatRam a => Sys2Proof.Machine.execXlatRam a s
  | .mbcRead a => Sys2Proof.Machine.execMbcRead a s
  | .mbcWrite a v => Sys2Proof.Machine.execMbcWrite a v s
  | .attachSynth h => Sys2Proof.Machine.execAttachSynth h s
  | .framebuffer => Sys2Proof.Machine.execFramebuffer s
  | .isDmaActive => Sys2Proof.Machine.execIsDmaActive s
  | .joypadInject j => Sys2Proof.Machine.execJoypadInject j s

end Sys2Proof.Machine
end

