-- ==== Sys2Proof/Machine/Step.lean ====
section
/-! DEFINITION. Machine/Step.lean: one step of the block: run the oldest presented transaction. A block with nothing
presented waits (log 1); a reserved packet is refused (30_encoding.md R79(d)). -/

namespace Sys2Proof.Machine

/-- One step. -/
def step (s : State) : Host.Outcome State Fault Refusal :=
  match fetch s with
  | none => .next s
  | some (p, t) =>
    match decode t.cfg.ifAddr p with
    | .ok i => exec i t
    | .error e => .refused (.reservedPacket e)

/-- The state with a table word presented as the next transaction. For a word that is an `IO` or `IF` row only because
the table is written for one `IF_ADDR`, the block is one with that `IF_ADDR` (30_encoding.md R73; log 6); for every other
word, and in every other field, only `port` differs. -/
def State.withFetchWord (s : State) (nbits w : Nat) : State :=
  let p := tablePacket nbits w
  present (if consultsIfAddr p then s.atTableIfAddr else s) p

end Sys2Proof.Machine
end

