-- ==== Sys2Proof/Machine/Pseudo.lean ====
section
/-! DEFINITION. Machine/Pseudo.lean: the pseudo-operations of 30_encoding.md R81: abbreviations for transactions that a
caller presents one after the other. -/

namespace Sys2Proof.Machine

/-- The pseudo-operations with a fixed expansion, and those with an operand (30_encoding.md R81). -/
inductive Pseudo where
  | ramen
  | ramdis
  | romb1 (k : BitVec 7)
  | romb3 (k : BitVec 7)
  | romb5 (k : BitVec 9)
  | ramb (k : BitVec 4)
  | mode (m : BitVec 1)
deriving DecidableEq, Repr

/-- The transactions a pseudo-operation stands for, in order (30_encoding.md R81). DESIGN CHOICE: R81 lists under which
variant (and, for ROMB1 and RAMB, which `mode` or `k`) each is valid and does not say what it means elsewhere; here it
expands all the same, and its transactions then do what they do in the state they meet (log 27). -/
def Pseudo.expand : Pseudo → List Instr
  | .ramen => [.wr 0x0000#16 0x0A#8]
  | .ramdis => [.wr 0x0000#16 0x00#8]
  | .romb1 k => [.wr 0x2000#16 (k.setWidth 8 &&& 0x1F#8), .wr 0x4000#16 (k.setWidth 8 >>> 5)]
  | .romb3 k => [.wr 0x2000#16 (k.setWidth 8)]
  | .romb5 k => [.wr 0x2000#16 (k.setWidth 8), .wr 0x3000#16 ((k >>> 8).setWidth 8)]
  | .ramb k => [.wr 0x4000#16 (k.setWidth 8)]
  | .mode m => [.wr 0x6000#16 (m.setWidth 8)]

/-- Run transactions one after the other, each complete before the next (20_memory.md R52). -/
def execAll : List Instr → State → Host.Outcome State Fault Refusal
  | [], s => .next s
  | i :: is, s =>
    match exec i s with
    | .next t => execAll is t
    | .fault r => .fault r
    | .refused r => .refused r

/-- The transactions `IRQ_ACK` stands for in a state: resolve, and clear the winner if there is one (30_encoding.md R81,
42_interrupt_ops.md R169). -/
def irqAck (s : State) : List Instr :=
  match prio s.ie s.ifl with
  | some i => [.irqResolve, .irqClear i]
  | none => [.irqResolve]

/-- `IRQ_ACK`: run those transactions, then `return r`, the source IRQ_RESOLVE named or `None` (42_interrupt_ops.md
R169). -/
def execIrqAck (s : State) : Host.Outcome State Fault Refusal :=
  match execAll (irqAck s) s with
  | .next t => .next (t.answer (.source (prio s.ie s.ifl)))
  | .fault r => .fault r
  | .refused r => .refused r

end Sys2Proof.Machine
end

