-- ==== Sys2Proof/Safety.lean ====
section
/-! DEFINITION. Safety.lean: the invariant of the block, in the terms its rules state it (10_state.md R14, R15, R22, R27,
R29; log 7, log 8), and what it means that an operation completes. -/

namespace Sys2Proof.Machine

/-- The buffers keep their canonical form, and the two fixed ones their length (10_state.md R14, R15; log 8). -/
abbrev MemoriesOk (s : State) : Prop :=
  s.eram.wf = true ∧ s.wram.wf = true ∧ s.hram.wf = true ∧ s.wram.size = Config.wramLen ∧ s.hram.size = Config.hramLen

/-- Zero-bank invariant: `romb5` and `romb7` are never 0 (10_state.md R22). -/
def Controller.banksOk : Controller → Bool
  | .none => true
  | .type1 r => r.romb5 != 0#5
  | .type3 r => r.romb7 != 0#7
  | .type5 _ => true

/-- The accounting invariant and the range of the remainders (10_state.md R27). -/
abbrev AccountsOk (s : State) : Prop :=
  s.ioRem < Config.ioDiv ∧ s.apuRem < Config.apuDiv
    ∧ s.ioDelivered * Config.ioDiv + s.ioRem = s.cycTotal ∧ s.apuDelivered * Config.apuDiv + s.apuRem = s.cycTotal

/-- `SNAP` has a value exactly when a synth is attached (10_state.md R29). -/
abbrev SnapOk (s : State) : Prop := s.snap.isSome = s.synthAttached

/-- No two buffers share a draw of unspecified bytes, and the next draw is unused (log 7). -/
abbrev DrawsOk (s : State) : Prop :=
  s.eram.draw < s.draws ∧ s.wram.draw < s.draws ∧ s.hram.draw < s.draws
    ∧ s.eram.draw ≠ s.wram.draw ∧ s.eram.draw ≠ s.hram.draw ∧ s.wram.draw ≠ s.hram.draw

/-- The invariant of the block. -/
abbrev Invariant (s : State) : Prop :=
  MemoriesOk s ∧ s.ctrl.banksOk = true ∧ AccountsOk s ∧ SnapOk s ∧ DrawsOk s

/-- The interaction issues no `CB_WRITE` to address `x`, whatever its reads are answered (43_step_coordinator.md R188). -/
def NeverWrites {p : Addr} (x : Addr) : IoProg p → Prop
  | .done _ => True
  | .read _ k => ∀ b, NeverWrites x (k b)
  | .write a _ k => a.addr ≠ x ∧ NeverWrites x k
  | .irq _ k => NeverWrites x k

/-- The operation answers a next state. -/
abbrev Completes (i : Instr) (s : State) : Prop := ∃ t, exec i s = .next t

end Sys2Proof.Machine
end

