-- ==== Sys2Proof/Certificates/Slice0/Obligations.lean ====
section
/-! DEFINITION. Certificates/Slice0/Obligations.lean: the statements about the block. A frame is written as an equation
of states: `t = { s with f := t.f }` says that every field but `f` is as before. "Decision D<n>" names a choice of
92_eei_decisions.md, which the model follows; a clause that rests on one is no sentence of the source. -/

open Sys2Proof Sys2Proof.Machine

/-! ### Encoding and stepping -/

/-- Decoding an encoded well-formed operation gives it back (30_encoding.md sections 1 and 5; the words are decision D1,
the packet is log 3 and log 5). -/
def Obligations.DecodeOfEncodeIsTheOperation : Prop :=
  ∀ (ifAddr : Addr) (i : Instr), Config.ifAddrAllowed ifAddr = true → i.wellFormed ifAddr = true →
    decode ifAddr (encode ifAddr i) = .ok i

/-- A packet that decodes is the encoding of what it decodes to, and that is well-formed: no packet has two meanings and
no bit of one is dropped (30_encoding.md sections 1 and 3; decisions D1 and D35, log 3). -/
def Obligations.EncodeOfDecodeIsThePacket : Prop :=
  ∀ (ifAddr : Addr) (p : Packet) (i : Instr), decode ifAddr p = .ok i →
    i.wellFormed ifAddr = true ∧ encode ifAddr i = p

/-- Nine of the example words of 30_encoding.md section 5 decode to the operations listed there (decision D1). -/
def Obligations.ExampleWordsDecode : Prop :=
  ∀ ifAddr : Addr,
    decode ifAddr ⟨.p, 0x00400000#32, [], []⟩ = .ok (.rd 0x4000#16)
    ∧ decode ifAddr ⟨.p, 0x01200005#32, [], []⟩ = .ok (.wr 0x2000#16 0x05#8)
    ∧ decode ifAddr ⟨.p, 0x01FFFF1F#32, [], []⟩ = .ok (.wr 0xFFFF#16 0x1F#8)
    ∧ decode ifAddr ⟨.p, 0x02000000#32, [4#64], []⟩ = .ok (.step 4#64)
    ∧ decode ifAddr ⟨.p, 0x11000000#32, [], []⟩ = .ok .getIfRaw
    ∧ decode ifAddr ⟨.p, 0x12000004#32, [], []⟩ = .ok (.setIfRaw 0x04#8)
    ∧ decode ifAddr ⟨.p, 0x15000002#32, [], []⟩ = .ok (.irqRequest .timer)
    ∧ decode ifAddr ⟨.p, 0x18000000#32, [], []⟩ = .ok .irqResolve
    ∧ decode ifAddr ⟨.p, 0x20000000#32, [], []⟩ = .ok .curRomBank

/-- Reserved format `P` words are refused by name: an `op` outside the table, a source index 5 to 7, a field that is not
used and not zero (30_encoding.md section 3(d); decision D35). -/
def Obligations.ReservedWordsAreRefused : Prop :=
  ∀ (s : State) (p : Packet) (rest : List Packet), s.port = p :: rest → p.format = .p →
    (opField p.word ∉ [0x00#8, 0x01#8, 0x02#8, 0x03#8, 0x04#8, 0x10#8, 0x11#8, 0x12#8, 0x13#8, 0x14#8, 0x15#8, 0x16#8,
        0x17#8, 0x18#8, 0x20#8, 0x21#8, 0x22#8, 0x23#8, 0x24#8, 0x30#8, 0x31#8, 0x32#8, 0x33#8] →
      step s = .refused (.reservedPacket .reservedOp))
    ∧ (opField p.word ∈ [0x13#8, 0x14#8, 0x15#8, 0x16#8] → addrField p.word = 0#16 →
        5 ≤ (dataField p.word).toNat → (dataField p.word).toNat ≤ 7 →
      step s = .refused (.reservedPacket .reservedSource))
    ∧ (opField p.word ∈ [0x13#8, 0x14#8, 0x15#8, 0x16#8] →
        (addrField p.word ≠ 0#16 ∨ 8 ≤ (dataField p.word).toNat) →
      step s = .refused (.reservedPacket .unusedField))
    ∧ (opField p.word ∈ [0x00#8, 0x21#8, 0x22#8, 0x23#8] → dataField p.word ≠ 0#8 →
      step s = .refused (.reservedPacket .unusedField))
    ∧ (opField p.word ∈ [0x12#8, 0x33#8] → addrField p.word ≠ 0#16 →
      step s = .refused (.reservedPacket .unusedField))
    ∧ (opField p.word ∈ [0x02#8, 0x03#8, 0x04#8, 0x10#8, 0x11#8, 0x17#8, 0x18#8, 0x20#8, 0x30#8, 0x31#8, 0x32#8] →
        (addrField p.word ≠ 0#16 ∨ dataField p.word ≠ 0#8) →
      step s = .refused (.reservedPacket .unusedField))

/-- A step runs the oldest presented transaction on the state in which it is no longer presented; with nothing presented
the block waits (the port list is the model's own, log 1). -/
def Obligations.StepRunsTheOldestTransaction : Prop :=
  (∀ (s : State) (p : Packet) (rest : List Packet) (i : Instr), s.port = p :: rest →
      decode s.cfg.ifAddr p = .ok i → step s = exec i { s with port := rest })
  ∧ ∀ s : State, s.port = [] → step s = .next s

/-- Every operation with any operands in any state answers a next state; no step faults, and a step refuses only a
packet that is no operation (60_exceptions.md section 1). That a transaction leaves `cfg` and `port` alone is the
model's choice (log 6, log 14), and so are the packets of format `A` and `M` and the extension operands that are refused
beside the reserved format `P` words (log 3, log 5, log 15). -/
def Obligations.EveryOperationCompletes : Prop :=
  (∀ (i : Instr) (s : State), ∃ t, exec i s = .next t ∧ t.cfg = s.cfg ∧ t.port = s.port)
  ∧ (∀ (s : State) (f : Fault), step s ≠ .fault f)
  ∧ ∀ (s : State) (r : Refusal), step s = .refused r →
      ∃ p rest e, s.port = p :: rest ∧ decode s.cfg.ifAddr p = .error e ∧ r = .reservedPacket e

/-! ### The bus: which sub-operation an address selects -/

/-- `RD addr`, the word {0x00, `addr`, 0}, does what the one sub-operation of its range does, and returns a byte
(40_bus_read_write.md R100). -/
def Obligations.ReadRunsTheSubOperationOfItsRange : Prop :=
  ∀ (a : Addr) (s : State),
    decode s.cfg.ifAddr ⟨.p, wordP 0x00#8 a 0x00#8, [], []⟩ = .ok (.rd a)
    ∧ (a.toNat ≤ 0x3FFF → exec (.rd a) s = exec (.rdRom0 a) s)
    ∧ (0x4000 ≤ a.toNat → a.toNat ≤ 0x7FFF → exec (.rd a) s = exec (.rdRomx a) s)
    ∧ (0x8000 ≤ a.toNat → a.toNat ≤ 0x9FFF → exec (.rd a) s = exec (.rdVram a) s)
    ∧ (0xA000 ≤ a.toNat → a.toNat ≤ 0xBFFF → exec (.rd a) s = exec (.rdEram a) s)
    ∧ (0xC000 ≤ a.toNat → a.toNat ≤ 0xDFFF → exec (.rd a) s = exec (.rdWram a) s)
    ∧ (0xE000 ≤ a.toNat → a.toNat ≤ 0xFDFF → exec (.rd a) s = exec (.rdUnmapped a) s)
    ∧ (0xFE00 ≤ a.toNat → a.toNat ≤ 0xFE9F → exec (.rd a) s = exec (.rdOam a) s)
    ∧ (0xFEA0 ≤ a.toNat → a.toNat ≤ 0xFEFF → exec (.rd a) s = exec (.rdUnmapped a) s)
    ∧ (a = s.cfg.ifAddr → exec (.rd a) s = exec .rdIf s)
    ∧ (0xFF10 ≤ a.toNat → a.toNat ≤ 0xFF3F → exec (.rd a) s = exec (.rdApu a) s)
    ∧ (a ≠ s.cfg.ifAddr → (0xFF00 ≤ a.toNat ∧ a.toNat ≤ 0xFF0F ∨ 0xFF40 ≤ a.toNat ∧ a.toNat ≤ 0xFF7F) →
        exec (.rd a) s = exec (.rdIo a) s)
    ∧ (0xFF80 ≤ a.toNat → a.toNat ≤ 0xFFFE → exec (.rd a) s = exec (.rdHram a) s)
    ∧ (a.toNat = 0xFFFF → exec (.rd a) s = exec .rdIe s)
    ∧ ∃ t b, exec (.rd a) s = .next t ∧ t.result = .byte b

/-- `WR addr, data`, the word {0x01, `addr`, `data`}, does what the one sub-operation of its range does, and completes
(40_bus_read_write.md R113). -/
def Obligations.WriteRunsTheSubOperationOfItsRange : Prop :=
  ∀ (a : Addr) (v : Byte) (s : State),
    decode s.cfg.ifAddr ⟨.p, wordP 0x01#8 a v, [], []⟩ = .ok (.wr a v)
    ∧ (a.toNat ≤ 0x7FFF → exec (.wr a v) s = exec (.wrMbc a v) s)
    ∧ (0x8000 ≤ a.toNat → a.toNat ≤ 0x9FFF → exec (.wr a v) s = exec (.wrVram a v) s)
    ∧ (0xA000 ≤ a.toNat → a.toNat ≤ 0xBFFF → exec (.wr a v) s = exec (.wrEram a v) s)
    ∧ (0xC000 ≤ a.toNat → a.toNat ≤ 0xDFFF → exec (.wr a v) s = exec (.wrWram a v) s)
    ∧ (0xE000 ≤ a.toNat → a.toNat ≤ 0xFDFF → exec (.wr a v) s = exec (.wrUnmapped a v) s)
    ∧ (0xFE00 ≤ a.toNat → a.toNat ≤ 0xFE9F → exec (.wr a v) s = exec (.wrOam a v) s)
    ∧ (0xFEA0 ≤ a.toNat → a.toNat ≤ 0xFEFF → exec (.wr a v) s = exec (.wrUnmapped a v) s)
    ∧ (a = s.cfg.ifAddr → exec (.wr a v) s = exec (.wrIf v) s)
    ∧ (0xFF10 ≤ a.toNat → a.toNat ≤ 0xFF3F → exec (.wr a v) s = exec (.wrApu a v) s)
    ∧ (a ≠ s.cfg.ifAddr → (0xFF00 ≤ a.toNat ∧ a.toNat ≤ 0xFF0F ∨ 0xFF40 ≤ a.toNat ∧ a.toNat ≤ 0xFF7F) →
        exec (.wr a v) s = exec (.wrIo a v) s)
    ∧ (0xFF80 ≤ a.toNat → a.toNat ≤ 0xFFFE → exec (.wr a v) s = exec (.wrHram a v) s)
    ∧ (a.toNat = 0xFFFF → exec (.wr a v) s = exec (.wrIe v) s)
    ∧ ∃ t, exec (.wr a v) s = .next t ∧ t.result = .nothing

/-- A read outside the two collaborators' ranges changes no state of the block, so that a second read returns the same
byte (20_memory.md section 2, side effects). -/
def Obligations.ReadOutsideTheCollaboratorsChangesNothing : Prop :=
  ∀ (a : Addr) (s : State), Config.ioOwned s.cfg.ifAddr a = false → ¬ (0xFF10 ≤ a.toNat ∧ a.toNat ≤ 0xFF3F) →
    ∃ b, exec (.rd a) s = .next { s with result := .byte b }
      ∧ exec (.rd a) { s with result := .byte b } = .next { s with result := .byte b }

/-! ### Reads -/

/-- The fixed window shows the image itself and reads 0xFF beyond it, whatever the controller holds
(40_bus_read_write.md R101). -/
def Obligations.FixedWindowReadsTheImage : Prop :=
  ∀ (a : Addr) (s : State),
    (∀ h : a.toNat < s.cart.length, exec (.rdRom0 a) s = .next { s with result := .byte (s.cart[a.toNat]) })
    ∧ (s.cart.length ≤ a.toNat → exec (.rdRom0 a) s = .next { s with result := .byte 0xFF#8 })

/-- The switchable window shows the image at the bank the controller selects and reads 0xFF beyond the image
(40_bus_read_write.md R102). -/
def Obligations.SwitchableWindowReadsTheSelectedBank : Prop :=
  ∀ (a : Addr) (s : State), 0x4000 ≤ a.toNat → a.toNat ≤ 0x7FFF →
    (∀ h : s.romBank * 0x4000 + (a.toNat - 0x4000) < s.cart.length,
        exec (.rdRomx a) s = .next { s with result := .byte (s.cart[s.romBank * 0x4000 + (a.toNat - 0x4000)]) })
    ∧ (s.cart.length ≤ s.romBank * 0x4000 + (a.toNat - 0x4000) →
        exec (.rdRomx a) s = .next { s with result := .byte 0xFF#8 })

/-- The RAM window reads the external RAM at the selected bank while it is enabled, and 0xFF while it is disabled or
beyond the buffer (40_bus_read_write.md R104); it is always enabled under `None` and while `ram_en` is 1 under the other
variants (41_bank_controller.md R149). -/
def Obligations.RamWindowReadsGatedAndBounded : Prop :=
  (∀ s : State,
    (s.ctrl = .none → s.ctrl.ramEnabled = true)
    ∧ (∀ r, s.ctrl = .type1 r → s.ctrl.ramEnabled = r.ramEn)
    ∧ (∀ r, s.ctrl = .type3 r → s.ctrl.ramEnabled = r.ramEn)
    ∧ ∀ r, s.ctrl = .type5 r → s.ctrl.ramEnabled = r.ramEn)
  ∧ ∀ (a : Addr) (s : State), 0xA000 ≤ a.toNat → a.toNat ≤ 0xBFFF →
    (s.ctrl.ramEnabled = false ∨ s.eram.size ≤ s.ctrl.ramBank * 0x2000 + (a.toNat - 0xA000) →
        exec (.rdEram a) s = .next { s with result := .byte 0xFF#8 })
    ∧ (s.ctrl.ramEnabled = true →
        exec (.rdEram a) s
          = .next { s with result := .byte (s.eram.read (s.ctrl.ramBank * 0x2000 + (a.toNat - 0xA000))) })

/-- Reads of work RAM, high RAM, `IF` and `IE` return what is stored, all 8 bits, and change nothing
(40_bus_read_write.md R105, R109, R111, R112). -/
def Obligations.OwnedReadsReturnWhatIsStored : Prop :=
  ∀ (a : Addr) (s : State),
    (0xC000 ≤ a.toNat → a.toNat ≤ 0xDFFF →
      exec (.rdWram a) s = .next { s with result := .byte (s.wram.read (a.toNat - 0xC000)) })
    ∧ (0xFF80 ≤ a.toNat → a.toNat ≤ 0xFFFE →
      exec (.rdHram a) s = .next { s with result := .byte (s.hram.read (a.toNat - 0xFF80)) })
    ∧ exec .rdIf s = .next { s with result := .byte s.ifl }
    ∧ exec .rdIe s = .next { s with result := .byte s.ie }

/-- Reads of the collaborators' ranges hand back the collaborator's byte and take over its state (40_bus_read_write.md
R103, R107, R108, R110); nothing is published. -/
def Obligations.CollaboratorReadsAreDelegated : Prop :=
  ∀ (a : Addr) (s : State),
    exec (.rdVram a) s
        = .next { s with ios := (Config.ioRead s.ios a).2, result := .byte (Config.ioRead s.ios a).1 }
    ∧ exec (.rdOam a) s
        = .next { s with ios := (Config.ioRead s.ios a).2, result := .byte (Config.ioRead s.ios a).1 }
    ∧ exec (.rdIo a) s
        = .next { s with ios := (Config.ioRead s.ios a).2, result := .byte (Config.ioRead s.ios a).1 }
    ∧ exec (.rdApu a) s
        = .next { s with apus := (Config.apuRead s.apus a).2, result := .byte (Config.apuRead s.apus a).1 }

/-! ### Writes -/

/-- A work-RAM write is read back at its address and changes no other byte and nothing else (40_bus_read_write.md R117;
the length of work RAM is 10_state.md R14, part of the invariant). -/
def Obligations.WorkRamWriteIsReadBack : Prop :=
  ∀ (a : Addr) (v : Byte) (s : State), 0xC000 ≤ a.toNat → a.toNat ≤ 0xDFFF → s.wram.size = 0x2000 →
    ∃ t, exec (.wrWram a v) s = .next t ∧ t = { s with wram := t.wram, result := .nothing }
      ∧ t.wram.read (a.toNat - 0xC000) = v ∧ (∀ j, j ≠ a.toNat - 0xC000 → t.wram.read j = s.wram.read j)
      ∧ exec (.rd a) t = .next { t with result := .byte v }
      ∧ ∀ b, b ≠ a → busByte t b = busByte s b

/-- A high-RAM write is read back at its address and changes no other byte and nothing else (40_bus_read_write.md R123,
whose read-back sentence the spec marks as derived from that rule and R111; the length of high RAM is 10_state.md R15,
part of the invariant). -/
def Obligations.HighRamWriteIsReadBack : Prop :=
  ∀ (a : Addr) (v : Byte) (s : State), 0xFF80 ≤ a.toNat → a.toNat ≤ 0xFFFE → s.hram.size = 0x7F →
    ∃ t, exec (.wrHram a v) s = .next t ∧ t = { s with hram := t.hram, result := .nothing }
      ∧ t.hram.read (a.toNat - 0xFF80) = v ∧ (∀ j, j ≠ a.toNat - 0xFF80 → t.hram.read j = s.hram.read j)
      ∧ exec (.rd a) t = .next { t with result := .byte v }
      ∧ ∀ b, b ≠ a → busByte t b = busByte s b

/-- The holes read 0xFF and drop writes (decision D4: the document's table does not mention them). -/
def Obligations.HolesReadFillAndDropWrites : Prop :=
  ∀ (a : Addr) (v : Byte) (s : State),
    (0xE000 ≤ a.toNat ∧ a.toNat ≤ 0xFDFF ∨ 0xFEA0 ≤ a.toNat ∧ a.toNat ≤ 0xFEFF) →
    exec (.rdUnmapped a) s = .next { s with result := .byte 0xFF#8 }
    ∧ exec (.wrUnmapped a v) s = .next { s with result := .nothing }
    ∧ exec (.rd a) s = .next { s with result := .byte 0xFF#8 }
    ∧ exec (.wr a v) s = .next { s with result := .nothing }

/-- `WR.IF` and `WR.IE` replace the whole byte, all 8 bits, and change nothing else (40_bus_read_write.md R121, R124);
no collaborator is called. -/
def Obligations.InterruptBytesAreWrittenWhole : Prop :=
  ∀ (v : Byte) (s : State),
    exec (.wrIf v) s = .next { s with ifl := v, result := .nothing }
    ∧ exec (.wrIe v) s = .next { s with ie := v, result := .nothing }

/-- A write to the I/O collaborator's ranges takes over its state, OR-s its request mask into `IF[4:0]`, leaves bits 7:5
of `IF` alone and changes nothing else (40_bus_read_write.md R115, R119, R120). -/
def Obligations.CollaboratorWritesRaiseRequests : Prop :=
  ∀ (a : Addr) (v : Byte) (s : State) (i : Instr), i = .wrVram a v ∨ i = .wrOam a v ∨ i = .wrIo a v →
    ∃ t, exec i s = .next t
      ∧ t = { s with ios := (Config.ioWrite s.ios a v).1, ifl := t.ifl, result := .nothing }
      ∧ ∀ k, t.ifl.getLsbD k
          = (s.ifl.getLsbD k || (decide (k < 5) && (Config.ioWrite s.ios a v).2.getLsbD k))

/-- A sound-register write changes `APUS` and, while a synth is attached, publishes the state after the write
(40_bus_read_write.md R122). -/
def Obligations.SoundWritePublishes : Prop :=
  ∀ (a : Addr) (v : Byte) (s : State),
    (s.synthAttached = true →
      exec (.wrApu a v) s = .next { s with
        apus := Config.apuWrite s.apus a v, snap := some (Config.apuWrite s.apus a v), result := .nothing })
    ∧ (s.synthAttached = false →
      exec (.wrApu a v) s = .next { s with apus := Config.apuWrite s.apus a v, result := .nothing })

/-- An external-RAM write is dropped while the gate is closed or beyond the buffer; otherwise it stores at the selected
bank's offset, is read back there, and changes no other byte and nothing else (40_bus_read_write.md R116). -/
def Obligations.ExternalRamWriteIsGatedAndBounded : Prop :=
  ∀ (a : Addr) (v : Byte) (s : State), 0xA000 ≤ a.toNat → a.toNat ≤ 0xBFFF →
    (s.ctrl.ramEnabled = false ∨ s.eram.size ≤ eramOffset s.ctrl.ramBank a →
      exec (.wrEram a v) s = .next { s with result := .nothing })
    ∧ (s.ctrl.ramEnabled = true → eramOffset s.ctrl.ramBank a < s.eram.size →
      eramOffset s.ctrl.ramBank a = s.ctrl.ramBank * 0x2000 + (a.toNat - 0xA000)
      ∧ ∃ t, exec (.wrEram a v) s = .next t ∧ t = { s with eram := t.eram, result := .nothing }
        ∧ t.eram.size = s.eram.size ∧ t.eram.read (eramOffset s.ctrl.ramBank a) = v
        ∧ (∀ j, j ≠ eramOffset s.ctrl.ramBank a → t.eram.read j = s.eram.read j)
        ∧ exec (.rd a) t = .next { t with result := .byte v }
        ∧ ∀ b, b ≠ a → busByte t b = busByte s b)

/-- Only LOAD_ROM and RESET change the image: LOAD_ROM to its operand, RESET to the empty image (10_state.md R12). -/
def Obligations.OnlyLoadAndResetChangeTheImage : Prop :=
  (∀ (image : List Byte) (s : State), ∃ t, exec (.loadRom image) s = .next t ∧ t.cart = image)
  ∧ (∀ s : State, ∃ t, exec .reset s = .next t ∧ t.cart = [])
  ∧ ∀ (i : Instr) (s t : State), exec i s = .next t → (∀ image, i ≠ .loadRom image) → i ≠ .reset → t.cart = s.cart

/-- Only LOAD_ROM and RESET change the variant, LOAD_ROM to what the header says, RESET to `None` (10_state.md R16); and
only they change the length of external RAM (10_state.md section 3). -/
def Obligations.OnlyLoadAndResetChangeTheVariant : Prop :=
  (∀ (image : List Byte) (s : State), ∃ t, exec (.loadRom image) s = .next t ∧ t.ctrl.variant = deriveVariant image)
  ∧ (∀ s : State, ∃ t, exec .reset s = .next t ∧ t.ctrl.variant = .none)
  ∧ ∀ (i : Instr) (s t : State), exec i s = .next t → (∀ image, i ≠ .loadRom image) → i ≠ .reset →
      t.ctrl.variant = s.ctrl.variant ∧ t.eram.size = s.eram.size

/-! ### The controller -/

/-- `MBC_WRITE`, the word {0x24, `addr`, `v`}, selects the sub-operation by variant and address, does nothing above
0x7FFF, and writes nothing but controller registers; `WR` reaches it in ROM space (41_bank_controller.md R131). -/
def Obligations.ControlWriteSelectsByVariantAndAddress : Prop :=
  ∀ (a : Addr) (v : Byte) (s : State),
    decode s.cfg.ifAddr ⟨.p, wordP 0x24#8 a v, [], []⟩ = .ok (.mbcWrite a v)
    ∧ (a.toNat ≤ 0x7FFF → exec (.wr a v) s = exec (.mbcWrite a v) s)
    ∧ (0x8000 ≤ a.toNat → exec (.mbcWrite a v) s = .next { s with result := .nothing })
    ∧ (s.ctrl.variant = .none → a.toNat ≤ 0x7FFF → exec (.mbcWrite a v) s = exec (.noneCtrl a v) s)
    ∧ (s.ctrl.variant = .type1 →
        (a.toNat ≤ 0x1FFF → exec (.mbcWrite a v) s = exec (.t1Ramen a v) s)
        ∧ (0x2000 ≤ a.toNat → a.toNat ≤ 0x3FFF → exec (.mbcWrite a v) s = exec (.t1Romb a v) s)
        ∧ (0x4000 ≤ a.toNat → a.toNat ≤ 0x5FFF → exec (.mbcWrite a v) s = exec (.t1Sec a v) s)
        ∧ (0x6000 ≤ a.toNat → a.toNat ≤ 0x7FFF → exec (.mbcWrite a v) s = exec (.t1Mode a v) s))
    ∧ (s.ctrl.variant = .type3 →
        (a.toNat ≤ 0x1FFF → exec (.mbcWrite a v) s = exec (.t3Ramen a v) s)
        ∧ (0x2000 ≤ a.toNat → a.toNat ≤ 0x3FFF → exec (.mbcWrite a v) s = exec (.t3Romb a v) s)
        ∧ (0x4000 ≤ a.toNat → a.toNat ≤ 0x5FFF → exec (.mbcWrite a v) s = exec (.t3Ramb a v) s)
        ∧ (0x6000 ≤ a.toNat → a.toNat ≤ 0x7FFF → exec (.mbcWrite a v) s = exec (.t3Latch a v) s))
    ∧ (s.ctrl.variant = .type5 →
        (a.toNat ≤ 0x1FFF → exec (.mbcWrite a v) s = exec (.t5Ramen a v) s)
        ∧ (0x2000 ≤ a.toNat → a.toNat ≤ 0x2FFF → exec (.mbcWrite a v) s = exec (.t5RombLo a v) s)
        ∧ (0x3000 ≤ a.toNat → a.toNat ≤ 0x3FFF → exec (.mbcWrite a v) s = exec (.t5RombHi a v) s)
        ∧ (0x4000 ≤ a.toNat → a.toNat ≤ 0x5FFF → exec (.mbcWrite a v) s = exec (.t5Ramb a v) s)
        ∧ (0x6000 ≤ a.toNat → a.toNat ≤ 0x7FFF → exec (.mbcWrite a v) s = exec (.t5Rsvd a v) s))
    ∧ ∃ t, exec (.mbcWrite a v) s = .next t ∧ t = { s with ctrl := t.ctrl, result := .nothing }

/-- A write to ROM space is a control-register write: it writes nothing but controller registers, under `None` nothing,
and a later read of the same address returns the image's byte at the offset then selected, not the datum
(40_bus_read_write.md R114). -/
def Obligations.RomSpaceWriteIsAControlWrite : Prop :=
  ∀ (a : Addr) (v : Byte) (s : State), a.toNat ≤ 0x7FFF →
    exec (.wrMbc a v) s = exec (.mbcWrite a v) s
    ∧ ∃ t, exec (.wrMbc a v) s = .next t ∧ t = { s with ctrl := t.ctrl, result := .nothing }
      ∧ (s.ctrl.variant = .none → t.ctrl = s.ctrl)
      ∧ (a.toNat ≤ 0x3FFF → exec (.rd a) t = .next { t with result := .byte (s.cart.getD a.toNat 0xFF#8) })
      ∧ (0x4000 ≤ a.toNat → exec (.rd a) t
          = .next { t with result := .byte (s.cart.getD (t.romBank * 0x4000 + (a.toNat - 0x4000)) 0xFF#8) })

/-- The low nibble 0xA enables external RAM and every other low nibble disables it, under each variant that has the flag
(41_bank_controller.md R133, R137, R141). -/
def Obligations.LowNibbleEnablesRam : Prop :=
  ∀ (a : Addr) (v : Byte) (s : State),
    (∀ r, s.ctrl = .type1 r → exec (.t1Ramen a v) s
      = .next { s with ctrl := .type1 { r with ramEn := decide (v.toNat % 16 = 0xA) }, result := .nothing })
    ∧ (∀ r, s.ctrl = .type3 r → exec (.t3Ramen a v) s
      = .next { s with ctrl := .type3 { r with ramEn := decide (v.toNat % 16 = 0xA) }, result := .nothing })
    ∧ ∀ r, s.ctrl = .type5 r → exec (.t5Ramen a v) s
      = .next { s with ctrl := .type5 { r with ramEn := decide (v.toNat % 16 = 0xA) }, result := .nothing }

/-- `T1.ROMB` stores the 5 kept bits, 0 as 1 (the test on the kept bits is decision D9), and `T1.MODE` stores bit 0 of
the datum (decision D10); nothing else changes. With the mode set the RAM bank is `sec`, else 0 (decision D11). -/
def Obligations.Type1BankAndModeWrites : Prop :=
  ∀ (a : Addr) (v : Byte) (s : State) (r : Type1), s.ctrl = .type1 r →
    (∃ t b, exec (.t1Romb a v) s = .next t
      ∧ t = { s with ctrl := .type1 { r with romb5 := b }, result := .nothing }
      ∧ b.toNat = if v.toNat % 32 = 0 then 1 else v.toNat % 32)
    ∧ exec (.t1Mode a v) s
      = .next { s with ctrl := .type1 { r with mode := decide (v.toNat % 2 = 1) }, result := .nothing }
    ∧ Controller.ramBank (.type1 { r with mode := decide (v.toNat % 2 = 1) })
      = if v.toNat % 2 = 1 then r.sec.toNat else 0

/-- `T1.SEC` stores bits 1:0 of the datum, the same whatever `mode` is, and nothing else changes (41_bank_controller.md
R135). -/
def Obligations.Type1SecondaryWrite : Prop :=
  ∀ (a : Addr) (v : Byte) (s : State) (r : Type1), s.ctrl = .type1 r →
    ∃ t b, exec (.t1Sec a v) s = .next t ∧ t = { s with ctrl := .type1 { r with sec := b }, result := .nothing }
      ∧ b.toNat = v.toNat % 4

/-- `T3.ROMB` stores the 7 kept bits, 0 as 1, and nothing else changes (41_bank_controller.md R138). -/
def Obligations.Type3BankWrite : Prop :=
  ∀ (a : Addr) (v : Byte) (s : State) (r : Type3), s.ctrl = .type3 r →
    ∃ t b, exec (.t3Romb a v) s = .next t ∧ t = { s with ctrl := .type3 { r with romb7 := b }, result := .nothing }
      ∧ b.toNat = if v.toNat % 128 = 0 then 1 else v.toNat % 128

/-- `T3.RAMB` and `T5.RAMB` store bits 3:0 of the datum, which are then the RAM bank, and change nothing else (for
`Type3` the width is decision D13). -/
def Obligations.RamBankWrites : Prop :=
  ∀ (a : Addr) (v : Byte) (s : State),
    (∀ r, s.ctrl = .type3 r →
      ∃ t b, exec (.t3Ramb a v) s = .next t ∧ t = { s with ctrl := .type3 { r with ramb4 := b }, result := .nothing }
        ∧ b.toNat = v.toNat % 16 ∧ t.ctrl.ramBank = v.toNat % 16)
    ∧ ∀ r, s.ctrl = .type5 r →
      ∃ t b, exec (.t5Ramb a v) s = .next t ∧ t = { s with ctrl := .type5 { r with ramb4 := b }, result := .nothing }
        ∧ b.toNat = v.toNat % 16 ∧ t.ctrl.ramBank = v.toNat % 16

/-- `T5.ROMB_LO` replaces the low byte and keeps bit 8, `T5.ROMB_HI` replaces bit 8 by bit 0 of the datum and keeps the
low byte, nothing else changes, and after both, in either order, the bank is `((high & 1) << 8) | low`, 0 included
(41_bank_controller.md R142, R143). -/
def Obligations.Type5HalvesJointlySelectTheBank : Prop :=
  ∀ (a b : Addr) (lo hi : Byte) (s : State) (r : Type5), s.ctrl = .type5 r →
    (∃ t q, exec (.t5RombLo a lo) s = .next t ∧ t = { s with ctrl := .type5 { r with romb9 := q }, result := .nothing }
      ∧ q.toNat = r.romb9.toNat / 256 * 256 + lo.toNat)
    ∧ (∃ t q, exec (.t5RombHi b hi) s = .next t ∧ t = { s with ctrl := .type5 { r with romb9 := q }, result := .nothing }
      ∧ q.toNat = hi.toNat % 2 * 256 + r.romb9.toNat % 256)
    ∧ (∃ t, execAll [.t5RombLo a lo, .t5RombHi b hi] s = .next t ∧ t.romBank = hi.toNat % 2 * 256 + lo.toNat)
    ∧ ∃ t, execAll [.t5RombHi b hi, .t5RombLo a lo] s = .next t ∧ t.romBank = hi.toNat % 2 * 256 + lo.toNat

/-- Under `None` no control-register write has effect (41_bank_controller.md R132); that `NONE.CTRL`, presented under
another variant, has none either is the model's choice (log 4). -/
def Obligations.NoneIgnoresControlWrites : Prop :=
  ∀ (a : Addr) (v : Byte) (s : State),
    exec (.noneCtrl a v) s = .next { s with result := .nothing }
    ∧ (s.ctrl.variant = .none → exec (.mbcWrite a v) s = .next { s with result := .nothing })

/-- Control writes that have no register change nothing: `T3.LATCH` and `T5.RSVD` (decision D14), and a sub-operation
presented under another variant than its own (the model's choice, log 4). -/
def Obligations.ControlWritesWithoutARegister : Prop :=
  ∀ (a : Addr) (v : Byte) (s : State),
    exec (.t3Latch a v) s = .next { s with result := .nothing }
    ∧ exec (.t5Rsvd a v) s = .next { s with result := .nothing }
    ∧ (s.ctrl.variant ≠ .type1 → ∀ i ∈ [Instr.t1Ramen a v, .t1Romb a v, .t1Sec a v, .t1Mode a v],
        exec i s = .next { s with result := .nothing })
    ∧ (s.ctrl.variant ≠ .type3 → ∀ i ∈ [Instr.t3Ramen a v, .t3Romb a v, .t3Ramb a v],
        exec i s = .next { s with result := .nothing })
    ∧ (s.ctrl.variant ≠ .type5 → ∀ i ∈ [Instr.t5Ramen a v, .t5RombLo a v, .t5RombHi a v, .t5Ramb a v],
        exec i s = .next { s with result := .nothing })

/-- `CUR_ROM_BANK` returns the bank the switchable window uses, by variant as `rom_bank_eff` says, and changes nothing
(41_bank_controller.md section 3; the reading of `sec` under `mode` = 1 is decision D11). -/
def Obligations.CurrentRomBank : Prop :=
  ∀ s : State,
    exec .curRomBank s = .next { s with result := .index s.romBank }
    ∧ (s.ctrl = .none → exec .curRomBank s = .next { s with result := .index 1 })
    ∧ (∀ r, s.ctrl = .type1 r → r.mode = false ∨ s.cfg.t1HighInMode1 = true →
        exec .curRomBank s = .next { s with result := .index (r.sec.toNat * 32 + r.romb5.toNat) })
    ∧ (∀ r, s.ctrl = .type1 r → r.mode = true → s.cfg.t1HighInMode1 = false →
        exec .curRomBank s = .next { s with result := .index r.romb5.toNat })
    ∧ (∀ r, s.ctrl = .type3 r → exec .curRomBank s = .next { s with result := .index r.romb7.toNat })
    ∧ ∀ r, s.ctrl = .type5 r → exec .curRomBank s = .next { s with result := .index r.romb9.toNat }

/-- `XLAT_ROM` and `XLAT_RAM` return the offsets of the two windows and change nothing (41_bank_controller.md section 4;
outside the windows decision D31); the RAM bank is what `ram_bank_eff` says by variant (section 3; `Type1` by `mode` is
decision D11); no offset exceeds the largest the spec names. -/
def Obligations.TranslationsGiveTheWindowOffsets : Prop :=
  ∀ (a : Addr) (s : State),
    (a.toNat ≤ 0x3FFF → exec (.xlatRom a) s = .next { s with result := .offset a.toNat })
    ∧ (0x4000 ≤ a.toNat → a.toNat ≤ 0x7FFF →
        exec (.xlatRom a) s = .next { s with result := .offset (s.romBank * 0x4000 + (a.toNat - 0x4000)) })
    ∧ (0x8000 ≤ a.toNat →
        exec (.xlatRom a) s = .next { s with result := .offset (s.romBank * 0x4000 + a.toNat % 0x4000) })
    ∧ exec (.xlatRam a) s = .next { s with result := .offset (s.ctrl.ramBank * 0x2000 + a.toNat % 0x2000) }
    ∧ (s.ctrl = .none → s.ctrl.ramBank = 0)
    ∧ (∀ r, s.ctrl = .type1 r → s.ctrl.ramBank = if r.mode then r.sec.toNat else 0)
    ∧ (∀ r, s.ctrl = .type3 r → s.ctrl.ramBank = r.ramb4.toNat)
    ∧ (∀ r, s.ctrl = .type5 r → s.ctrl.ramBank = r.ramb4.toNat)
    ∧ s.romBank * 0x4000 + a.toNat % 0x4000 ≤ 0x7FFFFF
    ∧ s.ctrl.ramBank * 0x2000 + a.toNat % 0x2000 ≤ 0x1FFFF

/-- `MBC_READ` returns what `RD` returns in ROM space, and 0xFF above it (41_bank_controller.md section 4; above 0x7FFF
decision D31). -/
def Obligations.ControllerReadAgreesWithTheBus : Prop :=
  ∀ (a : Addr) (s : State),
    (a.toNat ≤ 0x7FFF → exec (.mbcRead a) s = exec (.rd a) s
      ∧ exec (.mbcRead a) s = .next { s with result := .byte (busByte s a) })
    ∧ (0x8000 ≤ a.toNat → exec (.mbcRead a) s = .next { s with result := .byte 0xFF#8 })

/-- Under the zero-bank invariant the switchable window of `Type1` never shows a bank that is a multiple of 0x20 and
that of `Type3` never shows bank 0 (10_state.md section 4, 41_bank_controller.md section 5; decisions D9 and D11).
-/
def Obligations.SwitchableWindowNeverShowsBankZero : Prop :=
  ∀ s : State, s.ctrl.banksOk = true →
    (s.ctrl.variant = .type1 → s.romBank % 0x20 ≠ 0) ∧ (s.ctrl.variant = .type3 → s.romBank ≠ 0)

/-! ### Interrupts -/

/-- The four named operations, the words {0x13 to 0x16, 0, index}, set or clear the source's one bit, in `IE` or in
`IF`, keep every other bit, 7:5 included, and change nothing else (42_interrupt_ops.md R160, R161, R162, R163). -/
def Obligations.NamedInterruptOperationsChangeOneBit : Prop :=
  ∀ (i : Source) (s : State),
    decode s.cfg.ifAddr ⟨.p, wordP 0x13#8 0#16 (BitVec.ofNat 8 i.index), [], []⟩ = .ok (.irqEnable i)
    ∧ decode s.cfg.ifAddr ⟨.p, wordP 0x14#8 0#16 (BitVec.ofNat 8 i.index), [], []⟩ = .ok (.irqDisable i)
    ∧ decode s.cfg.ifAddr ⟨.p, wordP 0x15#8 0#16 (BitVec.ofNat 8 i.index), [], []⟩ = .ok (.irqRequest i)
    ∧ decode s.cfg.ifAddr ⟨.p, wordP 0x16#8 0#16 (BitVec.ofNat 8 i.index), [], []⟩ = .ok (.irqClear i)
    ∧ (∃ t, exec (.irqEnable i) s = .next t ∧ t = { s with ie := t.ie, result := .nothing }
      ∧ ∀ k, t.ie.getLsbD k = if k = i.index then true else s.ie.getLsbD k)
    ∧ (∃ t, exec (.irqDisable i) s = .next t ∧ t = { s with ie := t.ie, result := .nothing }
      ∧ ∀ k, t.ie.getLsbD k = if k = i.index then false else s.ie.getLsbD k)
    ∧ (∃ t, exec (.irqRequest i) s = .next t ∧ t = { s with ifl := t.ifl, result := .nothing }
      ∧ ∀ k, t.ifl.getLsbD k = if k = i.index then true else s.ifl.getLsbD k)
    ∧ ∃ t, exec (.irqClear i) s = .next t ∧ t = { s with ifl := t.ifl, result := .nothing }
      ∧ ∀ k, t.ifl.getLsbD k = if k = i.index then false else s.ifl.getLsbD k

/-- `IRQ_ANY`, the word 0x17000000, answers whether some source is both enabled and requested, and changes nothing
(42_interrupt_ops.md R164). -/
def Obligations.AnyInterruptIffSomeSourcePends : Prop :=
  ∀ s : State, decode s.cfg.ifAddr ⟨.p, 0x17000000#32, [], []⟩ = .ok .irqAny
    ∧ ∃ b : Bool, exec .irqAny s = .next { s with result := .bool b }
    ∧ (b = true ↔ ∃ i : Source, s.ie.getLsbD i.index = true ∧ s.ifl.getLsbD i.index = true)

/-- `IRQ_RESOLVE`, the word 0x18000000, names the lowest-numbered source that is both enabled and requested, or `None`
when there is none, and changes nothing (42_interrupt_ops.md R165, 60_exceptions.md R226). -/
def Obligations.ResolveNamesTheLowestPendingSource : Prop :=
  ∀ s : State, decode s.cfg.ifAddr ⟨.p, 0x18000000#32, [], []⟩ = .ok .irqResolve
    ∧ ∃ r : Option Source, exec .irqResolve s = .next { s with result := .source r }
    ∧ (r = none ↔ ∀ i : Source, ¬ (s.ie.getLsbD i.index = true ∧ s.ifl.getLsbD i.index = true))
    ∧ ∀ i : Source, r = some i ↔
        (s.ie.getLsbD i.index = true ∧ s.ifl.getLsbD i.index = true
          ∧ ∀ j : Source, j.index < i.index → ¬ (s.ie.getLsbD j.index = true ∧ s.ifl.getLsbD j.index = true))

/-- The raw accessors, the words 0x10000000, 0x11000000 and {0x12, 0, `v`}: `GET_IE_RAW` returns all of `IE`, as `RD
0xFFFF` does; `SET_IF_RAW` replaces all of `IF`, as `WR IF_ADDR` does (42_interrupt_ops.md R166, R168); `GET_IF_RAW`
returns all of `IF`, as `RD IF_ADDR` does (that bits 7:5 are not forced is decision D16). -/
def Obligations.RawAccessorsAgreeWithTheBus : Prop :=
  ∀ (v : Byte) (s : State),
    decode s.cfg.ifAddr ⟨.p, 0x10000000#32, [], []⟩ = .ok .getIeRaw
    ∧ decode s.cfg.ifAddr ⟨.p, 0x11000000#32, [], []⟩ = .ok .getIfRaw
    ∧ decode s.cfg.ifAddr ⟨.p, wordP 0x12#8 0#16 v, [], []⟩ = .ok (.setIfRaw v)
    ∧ exec .getIeRaw s = .next { s with result := .byte s.ie } ∧ exec .getIeRaw s = exec (.rd 0xFFFF#16) s
    ∧ exec .getIfRaw s = .next { s with result := .byte s.ifl } ∧ exec .getIfRaw s = exec (.rd s.cfg.ifAddr) s
    ∧ exec (.setIfRaw v) s = .next { s with ifl := v, result := .nothing }
    ∧ exec (.setIfRaw v) s = exec (.wr s.cfg.ifAddr v) s

/-- Outside STEP and RESET a request bit is cleared only by `IRQ_CLEAR` of its source or by a whole-byte write with that
bit 0; and an `io_step` call that never writes `IF_ADDR` clears none (60_exceptions.md section 2). -/
def Obligations.RequestsAreClearedOnlyOnDemand : Prop :=
  (∀ (i : Instr) (s t : State) (k : Source), exec i s = .next t → (∀ c, i ≠ .step c) → i ≠ .reset →
    s.ifl.getLsbD k.index = true → t.ifl.getLsbD k.index = false →
      i = .irqClear k ∨ (∃ v : Byte, v.getLsbD k.index = false
        ∧ (i = .setIfRaw v ∨ i = .wrIf v ∨ i = .wr s.cfg.ifAddr v)))
  ∧ ∀ (s : State) (prog : IoProg s.cfg.ifAddr) (k : Source), NeverWrites s.cfg.ifAddr prog →
      s.ifl.getLsbD k.index = true → (runIo prog s).ifl.getLsbD k.index = true

/-- Outside STEP and RESET the enable byte is changed only by `IRQ_ENABLE`, `IRQ_DISABLE` and a write to 0xFFFF; and an
`io_step` call that never writes 0xFFFF leaves it (60_exceptions.md section 2). -/
def Obligations.EnablesAreChangedOnlyOnDemand : Prop :=
  (∀ (i : Instr) (s t : State), exec i s = .next t → (∀ c, i ≠ .step c) → i ≠ .reset → t.ie ≠ s.ie →
    (∃ k, i = .irqEnable k ∨ i = .irqDisable k) ∨ ∃ v, i = .wrIe v ∨ i = .wr 0xFFFF#16 v)
  ∧ ∀ (s : State) (prog : IoProg s.cfg.ifAddr), NeverWrites 0xFFFF#16 prog → (runIo prog s).ie = s.ie

/-- The pseudo-operation `IRQ_ACK` stands for resolving and, with a winner, clearing it; it returns the winner or `None`,
clears exactly the winner's bit, changes nothing else, and the next source resolved has lower priority
(42_interrupt_ops.md, IRQ_ACK: not an operation of the document). -/
def Obligations.AcknowledgeClearsTheWinner : Prop :=
  ∀ s : State, ∃ (r : Option Source) (t u : State),
    exec .irqResolve s = .next { s with result := .source r }
    ∧ irqAck s = .irqResolve :: r.toList.map .irqClear
    ∧ execAll (irqAck s) s = .next u
    ∧ execIrqAck s = .next t ∧ t = { u with result := .source r }
    ∧ t = { s with ifl := t.ifl, result := .source r }
    ∧ (∀ i, r = some i →
        (∀ k, t.ifl.getLsbD k = if k = i.index then false else s.ifl.getLsbD k)
        ∧ ∀ j, exec .irqResolve t = .next { t with result := .source (some j) } → i.index < j.index)
    ∧ (r = none → t.ifl = s.ifl)

/-! ### The coordinator -/

/-- `chunks(n, M)`: the loop's list adds up to `n`, every chunk is between 1 and `M`, and it is `n div M` copies of `M`
followed by `n mod M` if that is not 0 (43_step_coordinator.md R181). -/
def Obligations.ChunksAreLossless : Prop :=
  ∀ n m : Nat, 1 ≤ m →
    (chunks n m).sum = n
    ∧ (∀ c ∈ chunks n m, 1 ≤ c ∧ c ≤ m)
    ∧ chunks n m = List.replicate (n / m) m ++ (if n % m = 0 then [] else [n % m])
    ∧ (chunks n m = [] ↔ n = 0)
    ∧ ((chunks n m).length = 1 ↔ 1 ≤ n ∧ n ≤ m)

/-- After STEP each collaborator has been advanced by exactly `cycles` more, the remainders are 0, the accounting
invariant holds again, and what no callback can reach is unchanged (43_step_coordinator.md sections 1; the dividers
of 1 are decision D23). -/
def Obligations.StepDeliversEveryCycle : Prop :=
  ∀ (c : Cycles) (s : State), AccountsOk s →
    ∃ t, exec (.step c) s = .next t
      ∧ t.cycTotal = s.cycTotal + c.toNat ∧ t.ioDelivered = s.ioDelivered + c.toNat
      ∧ t.apuDelivered = s.apuDelivered + c.toNat ∧ t.ioRem = 0 ∧ t.apuRem = 0 ∧ AccountsOk t
      ∧ t.cart = s.cart ∧ t.ctrl.variant = s.ctrl.variant ∧ t.eram.size = s.eram.size ∧ t.synth = s.synth
      ∧ t.cfg = s.cfg ∧ t.port = s.port ∧ t.draws = s.draws ∧ t.result = .nothing

/-- STEP applies every I/O chunk, each with its callbacks, before the first audio chunk; then every audio chunk, to
`APUS` alone; then it publishes once (43_step_coordinator.md section 1; that the lists are not interleaved is
decision D22, the dividers of 1 decision D23). -/
def Obligations.StepAdvancesIoThenAudio : Prop :=
  ∀ (c : Cycles) (s : State), AccountsOk s →
    ∃ (m : State) (x : ApuState),
      m = (chunks c.toNat s.cfg.ioChunkMax.val).foldl
            (fun u k => { runIo (Config.ioStep u.cfg.ifAddr u.ios k) u with ioDelivered := u.ioDelivered + k })
            { s with cycTotal := s.cycTotal + c.toNat }
      ∧ x = (chunks c.toNat s.cfg.apuChunkMax.val).foldl Config.apuStep m.apus
      ∧ exec (.step c) s = .next { m with
          apus := x
          apuDelivered := m.apuDelivered + c.toNat
          snap := if m.synthAttached then some x else m.snap
          result := .nothing }

/-- `STEP 0` calls no collaborator: its one effect is the publish (decision D33). -/
def Obligations.StepZeroOnlyPublishes : Prop :=
  ∀ s : State, AccountsOk s →
    exec (.step 0#64) s
      = .next { s with snap := if s.synthAttached then some s.apus else s.snap, result := .nothing }

/-- A STEP and any sequence of STEPs with the same sum leave the same counters and remainders (43_step_coordinator.md
section 1, losslessness; decision D23). -/
def Obligations.SplittingAStepKeepsTheCounters : Prop :=
  ∀ (n : Cycles) (parts : List Cycles) (s : State), AccountsOk s → n.toNat = (parts.map BitVec.toNat).sum →
    ∃ t u, exec (.step n) s = .next t ∧ execAll (parts.map .step) s = .next u
      ∧ t.cycTotal = u.cycTotal ∧ t.ioDelivered = u.ioDelivered ∧ t.apuDelivered = u.apuDelivered
      ∧ t.ioRem = u.ioRem ∧ t.apuRem = u.apuRem

/-- A callback does what the transaction of the same name does: `CB_READ` as `RD`, `CB_WRITE` as `WR`, `CB_IRQ` as
`IRQ_REQUEST`, each complete before the next (43_step_coordinator.md section 1, callbacks; decision D24). -/
def Obligations.CallbacksAreTransactions : Prop :=
  ∀ (s : State) (a : CallbackAddr s.cfg.ifAddr) (v : Byte) (i : Source) (k : IoProg s.cfg.ifAddr)
    (f : Byte → IoProg s.cfg.ifAddr),
    (∃ u b, exec (.rd a.addr) s = .next { u with result := .byte b } ∧ u.result = s.result
      ∧ runIo (.read a f) s = runIo (f b) u)
    ∧ (∃ u, exec (.wr a.addr v) s = .next { u with result := .nothing } ∧ u.result = s.result
      ∧ runIo (.write a v k) s = runIo k u)
    ∧ ∃ u, exec (.irqRequest i) s = .next { u with result := .nothing } ∧ u.result = s.result
      ∧ runIo (.irq i k) s = runIo k u

/-- The publish points are exactly the sound-register writes, STEP and ATTACH_SYNTH: there `SNAP` becomes the whole
state after the operation while a synth is attached; no other operation but RESET changes it
(44_cartridge_and_passthrough.md R207). -/
def Obligations.SnapshotChangesOnlyAtPublishPoints : Prop :=
  ∀ (i : Instr) (s t : State), exec i s = .next t → i ≠ .reset →
    (((∃ a v, i = .wrApu a v) ∨ (∃ a v, i = .wr a v ∧ 0xFF10 ≤ a.toNat ∧ a.toNat ≤ 0xFF3F)
        ∨ (∃ c, i = .step c) ∨ ∃ h, i = .attachSynth h) →
      t.snap = if t.synthAttached then some t.apus else s.snap)
    ∧ (¬ ((∃ a v, i = .wrApu a v) ∨ (∃ a v, i = .wr a v ∧ 0xFF10 ≤ a.toNat ∧ a.toNat ≤ 0xFF3F)
        ∨ (∃ c, i = .step c) ∨ ∃ h, i = .attachSynth h) →
      t.snap = s.snap)

/-! ### Cartridge, reset, pass-through -/

/-- LOAD_ROM replaces the image, external RAM, variant and controller registers and nothing else. The type byte at 0x0147
gives the variant and its first registers, the size byte at 0x0149 the length of external RAM, a code outside the tables
or an absent byte gives `None` and 0 (44_cartridge_and_passthrough.md section 1; the header is decisions D5 to D7, the
registers D8, what is kept D34). The new bytes are unspecified and, where the draws are unshared as the invariant says,
not those of a buffer in use (log 7). -/
def Obligations.LoadReplacesTheCartridgeState : Prop :=
  ∀ (image : List Byte) (s : State),
    ∃ t, exec (.loadRom image) s = .next t
      ∧ t = { s with cart := image, eram := t.eram, ctrl := t.ctrl, draws := s.draws + 1, result := .nothing }
      ∧ t.eram.size = deriveEramLen image ∧ t.eram.draw = s.draws
      ∧ (∀ j, j < deriveEramLen image → t.eram.read j = Config.ramInit s.draws j)
      ∧ (DrawsOk s → t.eram.draw ≠ s.eram.draw ∧ t.eram.draw ≠ t.wram.draw ∧ t.eram.draw ≠ t.hram.draw)
      ∧ (deriveVariant image = .none → t.ctrl = .none)
      ∧ (deriveVariant image = .type1 → t.ctrl = .type1 ⟨false, 1#5, 0#2, false⟩)
      ∧ (deriveVariant image = .type3 → t.ctrl = .type3 ⟨false, 1#7, 0#4⟩)
      ∧ (deriveVariant image = .type5 → t.ctrl = .type5 ⟨false, 1#9, 0#4⟩)
      ∧ (image.length ≤ 0x0147 → deriveVariant image = .none)
      ∧ (∀ h : 0x0147 < image.length,
          (image[0x0147].toNat ∈ [0x01, 0x02, 0x03] → deriveVariant image = .type1)
          ∧ (image[0x0147].toNat ∈ [0x0F, 0x10, 0x11, 0x12, 0x13] → deriveVariant image = .type3)
          ∧ (image[0x0147].toNat ∈ [0x19, 0x1A, 0x1B, 0x1C, 0x1D, 0x1E] → deriveVariant image = .type5)
          ∧ (image[0x0147].toNat ∉ [0x01, 0x02, 0x03, 0x0F, 0x10, 0x11, 0x12, 0x13, 0x19, 0x1A, 0x1B, 0x1C, 0x1D, 0x1E] →
              deriveVariant image = .none))
      ∧ (image.length ≤ 0x0149 → t.eram.size = 0)
      ∧ (∀ h : 0x0149 < image.length,
          (image[0x0149].toNat = 0x01 → t.eram.size = 0x800)
          ∧ (image[0x0149].toNat = 0x02 → t.eram.size = 0x2000)
          ∧ (image[0x0149].toNat = 0x03 → t.eram.size = 0x8000)
          ∧ (image[0x0149].toNat = 0x04 → t.eram.size = 0x20000)
          ∧ (image[0x0149].toNat = 0x05 → t.eram.size = 0x10000)
          ∧ (image[0x0149].toNat ∉ [0x01, 0x02, 0x03, 0x04, 0x05] → t.eram.size = 0))

/-- Directly after a load the two ROM windows show the image byte for byte, and the RAM window of a banked variant is
closed (44_cartridge_and_passthrough.md section 1; decision D8). -/
def Obligations.AfterLoadTheWindowsShowTheImage : Prop :=
  ∀ (image : List Byte) (s : State), ∃ t, exec (.loadRom image) s = .next t
    ∧ (∀ (a : Addr), a.toNat ≤ 0x7FFF → exec (.rd a) t = .next { t with result := .byte (image.getD a.toNat 0xFF#8) })
    ∧ (deriveVariant image ≠ .none → ∀ a : Addr, 0xA000 ≤ a.toNat → a.toNat ≤ 0xBFFF →
        exec (.rd a) t = .next { t with result := .byte 0xFF#8 })

/-- The empty image loads: `None`, no external RAM, 0xFF in all of ROM space and the RAM window, and the framebuffer is
still 23040 bytes; the part a shorter image misses reads 0xFF (44_cartridge_and_passthrough.md R204). -/
def Obligations.DegenerateImagesReadFill : Prop :=
  (∀ s : State, ∃ t, exec (.loadRom []) s = .next t ∧ t.ctrl.variant = .none ∧ t.eram.size = 0
    ∧ (∀ a : Addr, a.toNat ≤ 0x7FFF ∨ (0xA000 ≤ a.toNat ∧ a.toNat ≤ 0xBFFF) →
        exec (.rd a) t = .next { t with result := .byte 0xFF#8 })
    ∧ ∃ l, exec .framebuffer t = .next { t with result := .bytes l } ∧ l.length = 160 * 144)
  ∧ ∀ (image : List Byte) (s : State), ∃ t, exec (.loadRom image) s = .next t
    ∧ ∀ a : Addr, image.length ≤ a.toNat → a.toNat ≤ 0x7FFF → exec (.rd a) t = .next { t with result := .byte 0xFF#8 }

/-- RESET: the values 10_state.md section 9 lists for each element (decisions D17 to D19, D23, D29, D37, D38); the bytes
of work and high RAM are unspecified; the parameters and what is still presented stay (log 6, log 14). -/
def Obligations.ResetCreatesTheInitialState : Prop :=
  ∀ s : State, ∃ t, exec .reset s = .next t
    ∧ t.cart = [] ∧ t.eram.size = 0 ∧ t.ctrl = .none
    ∧ t.wram.size = 0x2000 ∧ (∀ j, j < 0x2000 → t.wram.read j = Config.ramInit t.wram.draw j)
    ∧ t.hram.size = 0x7F ∧ (∀ j, j < 0x7F → t.hram.read j = Config.ramInit t.hram.draw j)
    ∧ t.ie = 0x00#8 ∧ t.ifl = 0x00#8 ∧ t.ioRem = 0 ∧ t.apuRem = 0
    ∧ t.cycTotal = 0 ∧ t.ioDelivered = 0 ∧ t.apuDelivered = 0 ∧ t.ios = Config.ios0 ∧ t.apus = Config.apus0
    ∧ t.synthAttached = false ∧ t.snap = none ∧ t.cfg = s.cfg ∧ t.port = s.port
    ∧ s.draws ≤ t.wram.draw ∧ s.draws ≤ t.hram.draw ∧ t.wram.draw ≠ t.hram.draw
    ∧ exec .irqResolve t = .next { t with result := .source none }

/-- ATTACH_SYNTH binds the handle and publishes at once, and changes nothing else (44_cartridge_and_passthrough.md
section 2; publishing at once is decision D29, keeping the handle is log 13). -/
def Obligations.AttachBindsAndPublishes : Prop :=
  ∀ (h : Handle) (s : State),
    ∃ t, exec (.attachSynth h) s = .next t
      ∧ t = { s with synth := some h, snap := some s.apus, result := .nothing } ∧ t.synthAttached = true

/-- FRAMEBUFFER, the word 0x31000000, returns the collaborator's frame, exactly 23040 bytes, each 0 to 3, and changes
nothing (44_cartridge_and_passthrough.md R208). -/
def Obligations.FramebufferIsShades : Prop :=
  ∀ s : State, decode s.cfg.ifAddr ⟨.p, 0x31000000#32, [], []⟩ = .ok .framebuffer
    ∧ exec .framebuffer s = .next { s with result := .bytes (frameBytes s.ios) }
    ∧ (frameBytes s.ios).length = 23040 ∧ ∀ b ∈ frameBytes s.ios, b.toNat ≤ 3

/-- IS_DMA_ACTIVE returns the collaborator's answer and changes nothing; JOYPAD_INJECT hands its byte to the
collaborator and changes `IOS` only, no request bit (44_cartridge_and_passthrough.md section 3; for the joypad
decision D36). -/
def Obligations.PassThroughsReachTheCollaborator : Prop :=
  ∀ (j : Byte) (s : State),
    exec .isDmaActive s = .next { s with result := .bool (Config.ioIsDmaActive s.ios) }
    ∧ exec (.joypadInject j) s = .next { s with ios := Config.ioJoypad s.ios j, result := .nothing }

/-! ### The invariant -/

/-- Every step keeps the invariant: canonical buffers of the fixed lengths, no zero bank under `Type1` and `Type3`, the
accounting of cycles, `SNAP` exactly while attached, and unshared draws of unspecified bytes (10_state.md sections
3, 4, 6 and 7; decisions D9 and D23, log 7, log 8). -/
def Obligations.StepKeepsTheInvariant : Prop :=
  ∀ s t : State, Invariant s → step s = .next t → Invariant t

/-- The state after reset meets the invariant (10_state.md section 9 for the values, sections 3, 4, 6 and 7 for what they
must meet); the canonical form of the buffers and the unshared draws are the model's own (log 7, log 8). -/
def Obligations.ResetMeetsTheInvariant : Prop := Invariant State.reset
end

