-- ==== Sys2Proof/Laws/Chunks.lean ====
section
/-! SUPPORT. Laws/Chunks.lean: the loop of `chunks` (43_step_coordinator.md R181), one turn at a time. -/

namespace Sys2Proof

theorem ChunkMax.val_pos (m : ChunkMax) : 1 ≤ m.val := by simp [ChunkMax.val]

end Sys2Proof

namespace Sys2Proof.Machine

/-- The loop's chunks add up to what remained, given enough turns. -/
theorem chunksLoop_sum {m : Nat} (hm : 1 ≤ m) (k rem : Nat) (h : rem ≤ k) : (chunksLoop k rem m).sum = rem := by
  induction k generalizing rem with
  | zero => simp [chunksLoop]; omega
  | succ k ih =>
    simp only [chunksLoop]
    split
    · simp; omega
    · rw [List.sum_cons, ih _ (by omega)]
      omega

/-- Every chunk of the loop is between 1 and the maximum. -/
theorem chunksLoop_bounds {m : Nat} (hm : 1 ≤ m) (k rem : Nat) :
    ∀ c ∈ chunksLoop k rem m, 1 ≤ c ∧ c ≤ m := by
  induction k generalizing rem with
  | zero => simp [chunksLoop]
  | succ k ih =>
    simp only [chunksLoop]
    split
    · simp
    · intro c hc
      rcases List.mem_cons.mp hc with rfl | hc
      · omega
      · exact ih _ c hc

/-- Whatever the chunk maximum, the chunks add up to the ticks. -/
theorem chunks_sum_max (n : Nat) (m : ChunkMax) : (chunks n m.val).sum = n :=
  chunksLoop_sum m.val_pos n n (Nat.le_refl n)

end Sys2Proof.Machine
end

