-- ==== Sys2Proof/Laws/Encoding.lean ====
section
/-! SUPPORT. Laws/Encoding.lean: the fields of an assembled word, the `op` table read both ways, the tags, the sources, and
which destination an address has. -/

namespace Sys2Proof

/-! ### Fields of an assembled word (30_encoding.md R70, R72, R74) -/

theorem append_toNat {n m : Nat} (x : BitVec n) (y : BitVec m) : (x ++ y).toNat = x.toNat * 2 ^ m + y.toNat := by
  rw [BitVec.toNat_append, Nat.shiftLeft_eq, Nat.mul_comm, ← Nat.two_pow_add_eq_or_of_lt y.isLt]

theorem wordP_toNat (o : BitVec 8) (a : Addr) (d : Byte) :
    (wordP o a d).toNat = o.toNat * 2 ^ 24 + (a.toNat * 2 ^ 8 + d.toNat) := by
  rw [wordP, append_toNat, append_toNat]

theorem wordKey_toNat (v high : BitVec 8) (a : Addr) :
    (wordKey v high a).toNat = v.toNat * 2 ^ 24 + (high.toNat * 2 ^ 16 + a.toNat) := by
  rw [wordKey, append_toNat, append_toNat]

theorem field_toNat (w : BitVec 32) (lo len : Nat) : (w.extractLsb' lo len).toNat = w.toNat / 2 ^ lo % 2 ^ len := by
  simp [Nat.shiftRight_eq_div_pow]

@[simp] theorem opField_wordP (o : BitVec 8) (a : Addr) (d : Byte) : opField (wordP o a d) = o := by
  apply BitVec.eq_of_toNat_eq
  rw [opField, field_toNat, wordP_toNat]
  omega

@[simp] theorem addrField_wordP (o : BitVec 8) (a : Addr) (d : Byte) : addrField (wordP o a d) = a := by
  apply BitVec.eq_of_toNat_eq
  rw [addrField, field_toNat, wordP_toNat]
  omega

@[simp] theorem dataField_wordP (o : BitVec 8) (a : Addr) (d : Byte) : dataField (wordP o a d) = d := by
  apply BitVec.eq_of_toNat_eq
  rw [dataField, field_toNat, wordP_toNat]
  omega

@[simp] theorem opField_wordKey (v high : BitVec 8) (a : Addr) : opField (wordKey v high a) = v := by
  apply BitVec.eq_of_toNat_eq
  rw [opField, field_toNat, wordKey_toNat]
  omega

@[simp] theorem keyHigh_wordKey (v high : BitVec 8) (a : Addr) : keyHigh (wordKey v high a) = high := by
  apply BitVec.eq_of_toNat_eq
  rw [keyHigh, field_toNat, wordKey_toNat]
  omega

@[simp] theorem keyAddr_wordKey (v high : BitVec 8) (a : Addr) : keyAddr (wordKey v high a) = a := by
  apply BitVec.eq_of_toNat_eq
  rw [keyAddr, field_toNat, wordKey_toNat]
  omega

/-- A word is made of its three format `P` fields. -/
theorem wordP_fields (w : BitVec 32) : wordP (opField w) (addrField w) (dataField w) = w := by
  apply BitVec.eq_of_toNat_eq
  rw [wordP_toNat, opField, addrField, dataField, field_toNat, field_toNat, field_toNat]
  omega

/-- A word is made of its datum and its key. -/
theorem wordKey_fields (w : BitVec 32) : wordKey (opField w) (keyHigh w) (keyAddr w) = w := by
  apply BitVec.eq_of_toNat_eq
  rw [wordKey_toNat, opField, keyHigh, keyAddr, field_toNat, field_toNat, field_toNat]
  omega

/-! ### The `op` table, the tags and the sources -/

@[simp] theorem Op.ofCode_code (o : Op) : Op.ofCode o.code = some o := by cases o <;> decide

/-- A code that is read as an operation is that operation's code (30_encoding.md R71). -/
theorem Op.code_of_ofCode {c : BitVec 8} {o : Op} (h : Op.ofCode c = some o) : o.code = c := by
  simpa using List.find?_some h

@[simp] theorem Variant.ofTag_tag (t : Variant) : Variant.ofTag t.tag = some t := by cases t <;> rfl

theorem Variant.tag_of_ofTag {b : BitVec 3} {t : Variant} (h : Variant.ofTag b = some t) : t.tag = b := by
  unfold Variant.ofTag at h
  split at h
  · cases h; simp_all [Variant.tag]
  · split at h
    · cases h; simp_all [Variant.tag]
    · split at h
      · cases h; simp_all [Variant.tag]
      · split at h
        · cases h; simp_all [Variant.tag]
        · cases h

@[simp] theorem Source.ofIndex_index (i : Source) : Source.ofIndex i.index = some i := by cases i <;> rfl

theorem Source.index_of_ofIndex {n : Nat} {i : Source} (h : Source.ofIndex n = some i) : i.index = n := by
  unfold Source.ofIndex at h
  split at h <;> cases h <;> rfl

@[simp] theorem sourceByte_toNat (i : Source) : (sourceByte i).toNat = i.index := by cases i <;> rfl

/-! ### Where an address goes (20_memory.md R40 to R42) -/

/-- The addresses of a region, the ranges of 40_bus_read_write.md R100 written as a disjoint partition. -/
def Region.holds (ifAddr a : Addr) : Region → Prop
  | .rom0 => a.toNat ≤ 0x3FFF
  | .romx => 0x4000 ≤ a.toNat ∧ a.toNat ≤ 0x7FFF
  | .vram => 0x8000 ≤ a.toNat ∧ a.toNat ≤ 0x9FFF
  | .eram => 0xA000 ≤ a.toNat ∧ a.toNat ≤ 0xBFFF
  | .wram => 0xC000 ≤ a.toNat ∧ a.toNat ≤ 0xDFFF
  | .unmapped => (0xE000 ≤ a.toNat ∧ a.toNat ≤ 0xFDFF) ∨ (0xFEA0 ≤ a.toNat ∧ a.toNat ≤ 0xFEFF)
  | .oam => 0xFE00 ≤ a.toNat ∧ a.toNat ≤ 0xFE9F
  | .io => ((0xFF00 ≤ a.toNat ∧ a.toNat ≤ 0xFF0F) ∨ (0xFF40 ≤ a.toNat ∧ a.toNat ≤ 0xFF7F)) ∧ a ≠ ifAddr
  | .ifl => ((0xFF00 ≤ a.toNat ∧ a.toNat ≤ 0xFF0F) ∨ (0xFF40 ≤ a.toNat ∧ a.toNat ≤ 0xFF7F)) ∧ a = ifAddr
  | .apu => 0xFF10 ≤ a.toNat ∧ a.toNat ≤ 0xFF3F
  | .hram => 0xFF80 ≤ a.toNat ∧ a.toNat ≤ 0xFFFE
  | .ie => a.toNat = 0xFFFF

/-- An address lies in the range of its region. -/
theorem regionOf_holds (ifAddr a : Addr) : (regionOf ifAddr a).holds ifAddr a := by
  have ha : a.toNat < 65536 := a.isLt
  unfold regionOf
  by_cases h1 : a.toNat ≤ 0x3FFF
  · rw [if_pos h1]; exact h1
  rw [if_neg h1]
  by_cases h2 : a.toNat ≤ 0x7FFF
  · rw [if_pos h2]; exact ⟨by omega, h2⟩
  rw [if_neg h2]
  by_cases h3 : a.toNat ≤ 0x9FFF
  · rw [if_pos h3]; exact ⟨by omega, h3⟩
  rw [if_neg h3]
  by_cases h4 : a.toNat ≤ 0xBFFF
  · rw [if_pos h4]; exact ⟨by omega, h4⟩
  rw [if_neg h4]
  by_cases h5 : a.toNat ≤ 0xDFFF
  · rw [if_pos h5]; exact ⟨by omega, h5⟩
  rw [if_neg h5]
  by_cases h6 : a.toNat ≤ 0xFDFF
  · rw [if_pos h6]; exact .inl ⟨by omega, h6⟩
  rw [if_neg h6]
  by_cases h7 : a.toNat ≤ 0xFE9F
  · rw [if_pos h7]; exact ⟨by omega, h7⟩
  rw [if_neg h7]
  by_cases h8 : a.toNat ≤ 0xFEFF
  · rw [if_pos h8]; exact .inr ⟨by omega, h8⟩
  rw [if_neg h8]
  by_cases h9 : a.toNat ≤ 0xFF7F
  · rw [if_pos h9]
    by_cases h10 : 0xFF10 ≤ a.toNat ∧ a.toNat ≤ 0xFF3F
    · rw [if_pos h10]; exact h10
    rw [if_neg h10]
    by_cases h11 : a = ifAddr
    · rw [if_pos h11]; exact ⟨by omega, h11⟩
    rw [if_neg h11]; exact ⟨by omega, h11⟩
  rw [if_neg h9]
  by_cases h12 : a.toNat ≤ 0xFFFE
  · rw [if_pos h12]; exact ⟨by omega, h12⟩
  rw [if_neg h12]
  show a.toNat = 0xFFFF
  omega

/-- The ranges are disjoint: an address in the range of a region is decoded to it (20_memory.md R51). -/
theorem regionOf_eq_of_holds {ifAddr a : Addr} {r : Region} (h : r.holds ifAddr a) : regionOf ifAddr a = r := by
  have ha : a.toNat < 65536 := a.isLt
  have h' := regionOf_holds ifAddr a
  generalize regionOf ifAddr a = q at h'
  cases q <;> cases r <;> simp only [Region.holds] at h h' <;> first | rfl | (exfalso; omega) | (exfalso; tauto)

/-- A region's range tells which addresses are decoded to it. -/
theorem regionOf_eq_iff (ifAddr a : Addr) (r : Region) : regionOf ifAddr a = r ↔ r.holds ifAddr a :=
  ⟨fun h => h ▸ regionOf_holds ifAddr a, regionOf_eq_of_holds⟩

/-- The I/O collaborator owns exactly the addresses that are decoded to it (20_memory.md R42). -/
theorem ioOwned_iff (ifAddr a : Addr) :
    Config.ioOwned ifAddr a = true ↔ regionOf ifAddr a = .vram ∨ regionOf ifAddr a = .oam ∨ regionOf ifAddr a = .io := by
  simp only [Config.ioOwned, decide_eq_true_eq, regionOf_eq_iff, Region.holds]

/-- An allowed `IF_ADDR` is decoded to `IF` (20_memory.md R42(b)). -/
theorem regionOf_ifAddr {ifAddr : Addr} (h : Config.ifAddrAllowed ifAddr = true) : regionOf ifAddr ifAddr = .ifl := by
  simp only [Config.ifAddrAllowed, decide_eq_true_eq] at h
  exact regionOf_eq_of_holds ⟨h, rfl⟩

/-- 0xFFFF is decoded to `IE` (20_memory.md R40). -/
theorem regionOf_ie (ifAddr : Addr) : regionOf ifAddr 0xFFFF#16 = .ie := rfl

/-- Outside the addresses R3 allows for `IF_ADDR`, where an address goes does not depend on it. -/
theorem regionOf_eq_of_not_allowed (x y : Addr) {a : Addr} (h : Config.ifAddrAllowed a = false) :
    regionOf x a = regionOf y a := by
  have hx := regionOf_holds x a
  simp only [Config.ifAddrAllowed, decide_eq_false_iff_not] at h
  refine (regionOf_eq_of_holds ?_).symm
  revert hx
  cases regionOf x a <;> simp only [Region.holds] <;> first | exact id | (intro hx; exact absurd hx.1 h)

end Sys2Proof
end

