-- ==== Sys2Proof/Laws/Memory.lean ====
section
/-! SUPPORT. Laws/Memory.lean: what the buffer operations do: a read after a write, every other byte left alone, the
canonical form and the length kept (log 8). -/

namespace Sys2Proof.Machine

/-- Listing a byte and looking it up gives it back. -/
theorem cellsGet_cellsSet_same (cs : List Host.Cell) (i : Nat) (v : Byte) : cellsGet (cellsSet cs i v) i = some v := by
  induction cs with
  | nil => simp [cellsSet, cellsGet]
  | cons c cs ih =>
    simp only [cellsSet]
    split
    · simp [cellsGet]
    · split
      · simp [cellsGet]
      · rename_i h
        simp [cellsGet, Ne.symm h, ih]

/-- Listing a byte leaves every other offset as it was. -/
theorem cellsGet_cellsSet_other (cs : List Host.Cell) {i j : Nat} (v : Byte) (h : j ≠ i) :
    cellsGet (cellsSet cs i v) j = cellsGet cs j := by
  induction cs with
  | nil => simp [cellsSet, cellsGet, Ne.symm h]
  | cons c cs ih =>
    simp only [cellsSet]
    split
    · simp [cellsGet, Ne.symm h]
    · split
      · rename_i hc
        simp [cellsGet, ← hc, Ne.symm h]
      · simp [cellsGet, ih]

/-- Listing a byte inside the buffer keeps offsets rising strictly and inside it. -/
theorem cellsSet_wf {size : Nat} (cs : List Host.Cell) (lo i : Nat) (v : Byte) (hlo : lo ≤ i) (hi : i < size)
    (h : cellsWf size lo cs = true) : cellsWf size lo (cellsSet cs i v) = true := by
  induction cs generalizing lo with
  | nil => simp [cellsSet, cellsWf, hlo, hi]
  | cons c cs ih =>
    simp only [cellsWf, Bool.and_eq_true, decide_eq_true_eq] at h
    simp only [cellsSet]
    split
    · rename_i hlt
      simp [cellsWf, hlo, hi, h]
      omega
    · split
      · rename_i heq
        subst heq
        simp [cellsWf, h]
      · rename_i hge hne
        simp [cellsWf, h, ih (c.1 + 1) (by omega) h.2]

@[simp] theorem Memory.write_size (m : Memory) (i : Nat) (v : Byte) : (m.write i v).size = m.size := by
  unfold Memory.write; split <;> rfl

@[simp] theorem Memory.write_draw (m : Memory) (i : Nat) (v : Byte) : (m.write i v).draw = m.draw := by
  unfold Memory.write; split <;> rfl

/-- Every buffer write keeps the canonical form. -/
theorem Memory.write_wf (m : Memory) (i : Nat) (v : Byte) (h : m.wf = true) : (m.write i v).wf = true := by
  unfold Memory.write
  split
  · exact cellsSet_wf m.cells 0 i v (Nat.zero_le _) ‹_› h
  · exact h

@[simp] theorem Memory.fresh_wf (size draw : Nat) : (Memory.fresh size draw).wf = true := rfl

/-- A byte written inside the buffer is read back. -/
theorem Memory.read_write_same (m : Memory) {i : Nat} (v : Byte) (h : i < m.size) : (m.write i v).read i = v := by
  simp [Memory.write, Memory.read, h, cellsGet_cellsSet_same]

/-- A write leaves every other byte alone. -/
theorem Memory.read_write_other (m : Memory) {i j : Nat} (v : Byte) (h : j ≠ i) : (m.write i v).read j = m.read j := by
  unfold Memory.write
  split
  · simp [Memory.read, Memory.unlisted, cellsGet_cellsSet_other _ _ h]
  · rfl

/-- A write beyond the buffer is dropped (20_memory.md R49). -/
theorem Memory.write_beyond (m : Memory) {i : Nat} (v : Byte) (h : m.size ≤ i) : m.write i v = m := by
  simp [Memory.write, Nat.not_lt.mpr h]

/-- A read beyond the buffer gives the fill byte (20_memory.md R49). -/
theorem Memory.read_beyond (m : Memory) {i : Nat} (h : m.size ≤ i) : m.read i = Config.fill := by
  simp [Memory.read, Nat.not_lt.mpr h]

/-- A fresh buffer reads its draw's unspecified bytes (10_state.md R34). -/
theorem Memory.read_fresh {size i : Nat} (draw : Nat) (h : i < size) :
    (Memory.fresh size draw).read i = Config.ramInit draw i := by
  simp [Memory.fresh, Memory.read, Memory.unlisted, cellsGet, h]

/-- The image at an offset inside it. -/
theorem cartRead_lt {cart : List Byte} {off : Nat} (h : off < cart.length) : cartRead cart off = cart[off] := by
  simp [cartRead, List.getD_eq_getElem?_getD, h]

/-- The image at an offset beyond it (20_memory.md R49). -/
theorem cartRead_beyond {cart : List Byte} {off : Nat} (h : cart.length ≤ off) : cartRead cart off = Config.fill := by
  simp [cartRead, List.getD_eq_getElem?_getD, h]

end Sys2Proof.Machine
end

