-- ==== Sys2Proof/Laws/State.lean ====
section
/-! SUPPORT. Laws/State.lean: one lemma per field per single-field update, so that no proof unfolds a record update. -/

namespace Sys2Proof.Machine

section
variable (s : State) (r : Result)
@[simp] theorem State.answer_cart : (s.answer r).cart = s.cart := rfl
@[simp] theorem State.answer_eram : (s.answer r).eram = s.eram := rfl
@[simp] theorem State.answer_wram : (s.answer r).wram = s.wram := rfl
@[simp] theorem State.answer_hram : (s.answer r).hram = s.hram := rfl
@[simp] theorem State.answer_ctrl : (s.answer r).ctrl = s.ctrl := rfl
@[simp] theorem State.answer_ie : (s.answer r).ie = s.ie := rfl
@[simp] theorem State.answer_ifl : (s.answer r).ifl = s.ifl := rfl
@[simp] theorem State.answer_ioRem : (s.answer r).ioRem = s.ioRem := rfl
@[simp] theorem State.answer_apuRem : (s.answer r).apuRem = s.apuRem := rfl
@[simp] theorem State.answer_cycTotal : (s.answer r).cycTotal = s.cycTotal := rfl
@[simp] theorem State.answer_ioDelivered : (s.answer r).ioDelivered = s.ioDelivered := rfl
@[simp] theorem State.answer_apuDelivered : (s.answer r).apuDelivered = s.apuDelivered := rfl
@[simp] theorem State.answer_ios : (s.answer r).ios = s.ios := rfl
@[simp] theorem State.answer_apus : (s.answer r).apus = s.apus := rfl
@[simp] theorem State.answer_synth : (s.answer r).synth = s.synth := rfl
@[simp] theorem State.answer_snap : (s.answer r).snap = s.snap := rfl
@[simp] theorem State.answer_cfg : (s.answer r).cfg = s.cfg := rfl
@[simp] theorem State.answer_port : (s.answer r).port = s.port := rfl
@[simp] theorem State.answer_result : (s.answer r).result = r := rfl
@[simp] theorem State.answer_draws : (s.answer r).draws = s.draws := rfl
end

section
variable (s : State) (b : Byte)
@[simp] theorem State.setIe_cart : (s.setIe b).cart = s.cart := rfl
@[simp] theorem State.setIe_eram : (s.setIe b).eram = s.eram := rfl
@[simp] theorem State.setIe_wram : (s.setIe b).wram = s.wram := rfl
@[simp] theorem State.setIe_hram : (s.setIe b).hram = s.hram := rfl
@[simp] theorem State.setIe_ctrl : (s.setIe b).ctrl = s.ctrl := rfl
@[simp] theorem State.setIe_ie : (s.setIe b).ie = b := rfl
@[simp] theorem State.setIe_ifl : (s.setIe b).ifl = s.ifl := rfl
@[simp] theorem State.setIe_ioRem : (s.setIe b).ioRem = s.ioRem := rfl
@[simp] theorem State.setIe_apuRem : (s.setIe b).apuRem = s.apuRem := rfl
@[simp] theorem State.setIe_cycTotal : (s.setIe b).cycTotal = s.cycTotal := rfl
@[simp] theorem State.setIe_ioDelivered : (s.setIe b).ioDelivered = s.ioDelivered := rfl
@[simp] theorem State.setIe_apuDelivered : (s.setIe b).apuDelivered = s.apuDelivered := rfl
@[simp] theorem State.setIe_ios : (s.setIe b).ios = s.ios := rfl
@[simp] theorem State.setIe_apus : (s.setIe b).apus = s.apus := rfl
@[simp] theorem State.setIe_synth : (s.setIe b).synth = s.synth := rfl
@[simp] theorem State.setIe_snap : (s.setIe b).snap = s.snap := rfl
@[simp] theorem State.setIe_cfg : (s.setIe b).cfg = s.cfg := rfl
@[simp] theorem State.setIe_port : (s.setIe b).port = s.port := rfl
@[simp] theorem State.setIe_result : (s.setIe b).result = s.result := rfl
@[simp] theorem State.setIe_draws : (s.setIe b).draws = s.draws := rfl
end

section
variable (s : State) (b : Byte)
@[simp] theorem State.setIfl_cart : (s.setIfl b).cart = s.cart := rfl
@[simp] theorem State.setIfl_eram : (s.setIfl b).eram = s.eram := rfl
@[simp] theorem State.setIfl_wram : (s.setIfl b).wram = s.wram := rfl
@[simp] theorem State.setIfl_hram : (s.setIfl b).hram = s.hram := rfl
@[simp] theorem State.setIfl_ctrl : (s.setIfl b).ctrl = s.ctrl := rfl
@[simp] theorem State.setIfl_ie : (s.setIfl b).ie = s.ie := rfl
@[simp] theorem State.setIfl_ifl : (s.setIfl b).ifl = b := rfl
@[simp] theorem State.setIfl_ioRem : (s.setIfl b).ioRem = s.ioRem := rfl
@[simp] theorem State.setIfl_apuRem : (s.setIfl b).apuRem = s.apuRem := rfl
@[simp] theorem State.setIfl_cycTotal : (s.setIfl b).cycTotal = s.cycTotal := rfl
@[simp] theorem State.setIfl_ioDelivered : (s.setIfl b).ioDelivered = s.ioDelivered := rfl
@[simp] theorem State.setIfl_apuDelivered : (s.setIfl b).apuDelivered = s.apuDelivered := rfl
@[simp] theorem State.setIfl_ios : (s.setIfl b).ios = s.ios := rfl
@[simp] theorem State.setIfl_apus : (s.setIfl b).apus = s.apus := rfl
@[simp] theorem State.setIfl_synth : (s.setIfl b).synth = s.synth := rfl
@[simp] theorem State.setIfl_snap : (s.setIfl b).snap = s.snap := rfl
@[simp] theorem State.setIfl_cfg : (s.setIfl b).cfg = s.cfg := rfl
@[simp] theorem State.setIfl_port : (s.setIfl b).port = s.port := rfl
@[simp] theorem State.setIfl_result : (s.setIfl b).result = s.result := rfl
@[simp] theorem State.setIfl_draws : (s.setIfl b).draws = s.draws := rfl
end

section
variable (s : State) (c : Controller)
@[simp] theorem State.setCtrl_cart : (s.setCtrl c).cart = s.cart := rfl
@[simp] theorem State.setCtrl_eram : (s.setCtrl c).eram = s.eram := rfl
@[simp] theorem State.setCtrl_wram : (s.setCtrl c).wram = s.wram := rfl
@[simp] theorem State.setCtrl_hram : (s.setCtrl c).hram = s.hram := rfl
@[simp] theorem State.setCtrl_ctrl : (s.setCtrl c).ctrl = c := rfl
@[simp] theorem State.setCtrl_ie : (s.setCtrl c).ie = s.ie := rfl
@[simp] theorem State.setCtrl_ifl : (s.setCtrl c).ifl = s.ifl := rfl
@[simp] theorem State.setCtrl_ioRem : (s.setCtrl c).ioRem = s.ioRem := rfl
@[simp] theorem State.setCtrl_apuRem : (s.setCtrl c).apuRem = s.apuRem := rfl
@[simp] theorem State.setCtrl_cycTotal : (s.setCtrl c).cycTotal = s.cycTotal := rfl
@[simp] theorem State.setCtrl_ioDelivered : (s.setCtrl c).ioDelivered = s.ioDelivered := rfl
@[simp] theorem State.setCtrl_apuDelivered : (s.setCtrl c).apuDelivered = s.apuDelivered := rfl
@[simp] theorem State.setCtrl_ios : (s.setCtrl c).ios = s.ios := rfl
@[simp] theorem State.setCtrl_apus : (s.setCtrl c).apus = s.apus := rfl
@[simp] theorem State.setCtrl_synth : (s.setCtrl c).synth = s.synth := rfl
@[simp] theorem State.setCtrl_snap : (s.setCtrl c).snap = s.snap := rfl
@[simp] theorem State.setCtrl_cfg : (s.setCtrl c).cfg = s.cfg := rfl
@[simp] theorem State.setCtrl_port : (s.setCtrl c).port = s.port := rfl
@[simp] theorem State.setCtrl_result : (s.setCtrl c).result = s.result := rfl
@[simp] theorem State.setCtrl_draws : (s.setCtrl c).draws = s.draws := rfl
end

section
variable (s : State) (m : Memory)
@[simp] theorem State.setEram_cart : (s.setEram m).cart = s.cart := rfl
@[simp] theorem State.setEram_eram : (s.setEram m).eram = m := rfl
@[simp] theorem State.setEram_wram : (s.setEram m).wram = s.wram := rfl
@[simp] theorem State.setEram_hram : (s.setEram m).hram = s.hram := rfl
@[simp] theorem State.setEram_ctrl : (s.setEram m).ctrl = s.ctrl := rfl
@[simp] theorem State.setEram_ie : (s.setEram m).ie = s.ie := rfl
@[simp] theorem State.setEram_ifl : (s.setEram m).ifl = s.ifl := rfl
@[simp] theorem State.setEram_ioRem : (s.setEram m).ioRem = s.ioRem := rfl
@[simp] theorem State.setEram_apuRem : (s.setEram m).apuRem = s.apuRem := rfl
@[simp] theorem State.setEram_cycTotal : (s.setEram m).cycTotal = s.cycTotal := rfl
@[simp] theorem State.setEram_ioDelivered : (s.setEram m).ioDelivered = s.ioDelivered := rfl
@[simp] theorem State.setEram_apuDelivered : (s.setEram m).apuDelivered = s.apuDelivered := rfl
@[simp] theorem State.setEram_ios : (s.setEram m).ios = s.ios := rfl
@[simp] theorem State.setEram_apus : (s.setEram m).apus = s.apus := rfl
@[simp] theorem State.setEram_synth : (s.setEram m).synth = s.synth := rfl
@[simp] theorem State.setEram_snap : (s.setEram m).snap = s.snap := rfl
@[simp] theorem State.setEram_cfg : (s.setEram m).cfg = s.cfg := rfl
@[simp] theorem State.setEram_port : (s.setEram m).port = s.port := rfl
@[simp] theorem State.setEram_result : (s.setEram m).result = s.result := rfl
@[simp] theorem State.setEram_draws : (s.setEram m).draws = s.draws := rfl
end

section
variable (s : State) (m : Memory)
@[simp] theorem State.setWram_cart : (s.setWram m).cart = s.cart := rfl
@[simp] theorem State.setWram_eram : (s.setWram m).eram = s.eram := rfl
@[simp] theorem State.setWram_wram : (s.setWram m).wram = m := rfl
@[simp] theorem State.setWram_hram : (s.setWram m).hram = s.hram := rfl
@[simp] theorem State.setWram_ctrl : (s.setWram m).ctrl = s.ctrl := rfl
@[simp] theorem State.setWram_ie : (s.setWram m).ie = s.ie := rfl
@[simp] theorem State.setWram_ifl : (s.setWram m).ifl = s.ifl := rfl
@[simp] theorem State.setWram_ioRem : (s.setWram m).ioRem = s.ioRem := rfl
@[simp] theorem State.setWram_apuRem : (s.setWram m).apuRem = s.apuRem := rfl
@[simp] theorem State.setWram_cycTotal : (s.setWram m).cycTotal = s.cycTotal := rfl
@[simp] theorem State.setWram_ioDelivered : (s.setWram m).ioDelivered = s.ioDelivered := rfl
@[simp] theorem State.setWram_apuDelivered : (s.setWram m).apuDelivered = s.apuDelivered := rfl
@[simp] theorem State.setWram_ios : (s.setWram m).ios = s.ios := rfl
@[simp] theorem State.setWram_apus : (s.setWram m).apus = s.apus := rfl
@[simp] theorem State.setWram_synth : (s.setWram m).synth = s.synth := rfl
@[simp] theorem State.setWram_snap : (s.setWram m).snap = s.snap := rfl
@[simp] theorem State.setWram_cfg : (s.setWram m).cfg = s.cfg := rfl
@[simp] theorem State.setWram_port : (s.setWram m).port = s.port := rfl
@[simp] theorem State.setWram_result : (s.setWram m).result = s.result := rfl
@[simp] theorem State.setWram_draws : (s.setWram m).draws = s.draws := rfl
end

section
variable (s : State) (m : Memory)
@[simp] theorem State.setHram_cart : (s.setHram m).cart = s.cart := rfl
@[simp] theorem State.setHram_eram : (s.setHram m).eram = s.eram := rfl
@[simp] theorem State.setHram_wram : (s.setHram m).wram = s.wram := rfl
@[simp] theorem State.setHram_hram : (s.setHram m).hram = m := rfl
@[simp] theorem State.setHram_ctrl : (s.setHram m).ctrl = s.ctrl := rfl
@[simp] theorem State.setHram_ie : (s.setHram m).ie = s.ie := rfl
@[simp] theorem State.setHram_ifl : (s.setHram m).ifl = s.ifl := rfl
@[simp] theorem State.setHram_ioRem : (s.setHram m).ioRem = s.ioRem := rfl
@[simp] theorem State.setHram_apuRem : (s.setHram m).apuRem = s.apuRem := rfl
@[simp] theorem State.setHram_cycTotal : (s.setHram m).cycTotal = s.cycTotal := rfl
@[simp] theorem State.setHram_ioDelivered : (s.setHram m).ioDelivered = s.ioDelivered := rfl
@[simp] theorem State.setHram_apuDelivered : (s.setHram m).apuDelivered = s.apuDelivered := rfl
@[simp] theorem State.setHram_ios : (s.setHram m).ios = s.ios := rfl
@[simp] theorem State.setHram_apus : (s.setHram m).apus = s.apus := rfl
@[simp] theorem State.setHram_synth : (s.setHram m).synth = s.synth := rfl
@[simp] theorem State.setHram_snap : (s.setHram m).snap = s.snap := rfl
@[simp] theorem State.setHram_cfg : (s.setHram m).cfg = s.cfg := rfl
@[simp] theorem State.setHram_port : (s.setHram m).port = s.port := rfl
@[simp] theorem State.setHram_result : (s.setHram m).result = s.result := rfl
@[simp] theorem State.setHram_draws : (s.setHram m).draws = s.draws := rfl
end

section
variable (s : State) (x : IoState)
@[simp] theorem State.setIos_cart : (s.setIos x).cart = s.cart := rfl
@[simp] theorem State.setIos_eram : (s.setIos x).eram = s.eram := rfl
@[simp] theorem State.setIos_wram : (s.setIos x).wram = s.wram := rfl
@[simp] theorem State.setIos_hram : (s.setIos x).hram = s.hram := rfl
@[simp] theorem State.setIos_ctrl : (s.setIos x).ctrl = s.ctrl := rfl
@[simp] theorem State.setIos_ie : (s.setIos x).ie = s.ie := rfl
@[simp] theorem State.setIos_ifl : (s.setIos x).ifl = s.ifl := rfl
@[simp] theorem State.setIos_ioRem : (s.setIos x).ioRem = s.ioRem := rfl
@[simp] theorem State.setIos_apuRem : (s.setIos x).apuRem = s.apuRem := rfl
@[simp] theorem State.setIos_cycTotal : (s.setIos x).cycTotal = s.cycTotal := rfl
@[simp] theorem State.setIos_ioDelivered : (s.setIos x).ioDelivered = s.ioDelivered := rfl
@[simp] theorem State.setIos_apuDelivered : (s.setIos x).apuDelivered = s.apuDelivered := rfl
@[simp] theorem State.setIos_ios : (s.setIos x).ios = x := rfl
@[simp] theorem State.setIos_apus : (s.setIos x).apus = s.apus := rfl
@[simp] theorem State.setIos_synth : (s.setIos x).synth = s.synth := rfl
@[simp] theorem State.setIos_snap : (s.setIos x).snap = s.snap := rfl
@[simp] theorem State.setIos_cfg : (s.setIos x).cfg = s.cfg := rfl
@[simp] theorem State.setIos_port : (s.setIos x).port = s.port := rfl
@[simp] theorem State.setIos_result : (s.setIos x).result = s.result := rfl
@[simp] theorem State.setIos_draws : (s.setIos x).draws = s.draws := rfl
end

section
variable (s : State) (x : ApuState)
@[simp] theorem State.setApus_cart : (s.setApus x).cart = s.cart := rfl
@[simp] theorem State.setApus_eram : (s.setApus x).eram = s.eram := rfl
@[simp] theorem State.setApus_wram : (s.setApus x).wram = s.wram := rfl
@[simp] theorem State.setApus_hram : (s.setApus x).hram = s.hram := rfl
@[simp] theorem State.setApus_ctrl : (s.setApus x).ctrl = s.ctrl := rfl
@[simp] theorem State.setApus_ie : (s.setApus x).ie = s.ie := rfl
@[simp] theorem State.setApus_ifl : (s.setApus x).ifl = s.ifl := rfl
@[simp] theorem State.setApus_ioRem : (s.setApus x).ioRem = s.ioRem := rfl
@[simp] theorem State.setApus_apuRem : (s.setApus x).apuRem = s.apuRem := rfl
@[simp] theorem State.setApus_cycTotal : (s.setApus x).cycTotal = s.cycTotal := rfl
@[simp] theorem State.setApus_ioDelivered : (s.setApus x).ioDelivered = s.ioDelivered := rfl
@[simp] theorem State.setApus_apuDelivered : (s.setApus x).apuDelivered = s.apuDelivered := rfl
@[simp] theorem State.setApus_ios : (s.setApus x).ios = s.ios := rfl
@[simp] theorem State.setApus_apus : (s.setApus x).apus = x := rfl
@[simp] theorem State.setApus_synth : (s.setApus x).synth = s.synth := rfl
@[simp] theorem State.setApus_snap : (s.setApus x).snap = s.snap := rfl
@[simp] theorem State.setApus_cfg : (s.setApus x).cfg = s.cfg := rfl
@[simp] theorem State.setApus_port : (s.setApus x).port = s.port := rfl
@[simp] theorem State.setApus_result : (s.setApus x).result = s.result := rfl
@[simp] theorem State.setApus_draws : (s.setApus x).draws = s.draws := rfl
end

section
variable (s : State) (x : Option ApuState)
@[simp] theorem State.setSnap_cart : (s.setSnap x).cart = s.cart := rfl
@[simp] theorem State.setSnap_eram : (s.setSnap x).eram = s.eram := rfl
@[simp] theorem State.setSnap_wram : (s.setSnap x).wram = s.wram := rfl
@[simp] theorem State.setSnap_hram : (s.setSnap x).hram = s.hram := rfl
@[simp] theorem State.setSnap_ctrl : (s.setSnap x).ctrl = s.ctrl := rfl
@[simp] theorem State.setSnap_ie : (s.setSnap x).ie = s.ie := rfl
@[simp] theorem State.setSnap_ifl : (s.setSnap x).ifl = s.ifl := rfl
@[simp] theorem State.setSnap_ioRem : (s.setSnap x).ioRem = s.ioRem := rfl
@[simp] theorem State.setSnap_apuRem : (s.setSnap x).apuRem = s.apuRem := rfl
@[simp] theorem State.setSnap_cycTotal : (s.setSnap x).cycTotal = s.cycTotal := rfl
@[simp] theorem State.setSnap_ioDelivered : (s.setSnap x).ioDelivered = s.ioDelivered := rfl
@[simp] theorem State.setSnap_apuDelivered : (s.setSnap x).apuDelivered = s.apuDelivered := rfl
@[simp] theorem State.setSnap_ios : (s.setSnap x).ios = s.ios := rfl
@[simp] theorem State.setSnap_apus : (s.setSnap x).apus = s.apus := rfl
@[simp] theorem State.setSnap_synth : (s.setSnap x).synth = s.synth := rfl
@[simp] theorem State.setSnap_snap : (s.setSnap x).snap = x := rfl
@[simp] theorem State.setSnap_cfg : (s.setSnap x).cfg = s.cfg := rfl
@[simp] theorem State.setSnap_port : (s.setSnap x).port = s.port := rfl
@[simp] theorem State.setSnap_result : (s.setSnap x).result = s.result := rfl
@[simp] theorem State.setSnap_draws : (s.setSnap x).draws = s.draws := rfl
end

end Sys2Proof.Machine
end

