-- ==== Sys2Proof/Laws/Ops.lean ====
section
/-! SUPPORT. Laws/Ops.lean: for each shared operation, what it can change and what it leaves alone. -/

namespace Sys2Proof.Machine

/-! ### publish (44_cartridge_and_passthrough.md R207) -/

section
variable (s : State)
theorem publish_eq : publish s = s.setSnap (if s.synthAttached then some s.apus else s.snap) := by
  unfold publish; split <;> rfl

@[simp] theorem publish_cart : (publish s).cart = s.cart := by rw [publish_eq]; rfl
@[simp] theorem publish_eram : (publish s).eram = s.eram := by rw [publish_eq]; rfl
@[simp] theorem publish_wram : (publish s).wram = s.wram := by rw [publish_eq]; rfl
@[simp] theorem publish_hram : (publish s).hram = s.hram := by rw [publish_eq]; rfl
@[simp] theorem publish_ctrl : (publish s).ctrl = s.ctrl := by rw [publish_eq]; rfl
@[simp] theorem publish_ie : (publish s).ie = s.ie := by rw [publish_eq]; rfl
@[simp] theorem publish_ifl : (publish s).ifl = s.ifl := by rw [publish_eq]; rfl
@[simp] theorem publish_ioRem : (publish s).ioRem = s.ioRem := by rw [publish_eq]; rfl
@[simp] theorem publish_apuRem : (publish s).apuRem = s.apuRem := by rw [publish_eq]; rfl
@[simp] theorem publish_cycTotal : (publish s).cycTotal = s.cycTotal := by rw [publish_eq]; rfl
@[simp] theorem publish_ioDelivered : (publish s).ioDelivered = s.ioDelivered := by rw [publish_eq]; rfl
@[simp] theorem publish_apuDelivered : (publish s).apuDelivered = s.apuDelivered := by rw [publish_eq]; rfl
@[simp] theorem publish_ios : (publish s).ios = s.ios := by rw [publish_eq]; rfl
@[simp] theorem publish_apus : (publish s).apus = s.apus := by rw [publish_eq]; rfl
@[simp] theorem publish_synth : (publish s).synth = s.synth := by rw [publish_eq]; rfl
@[simp] theorem publish_snap : (publish s).snap = if s.synthAttached then some s.apus else s.snap := by rw [publish_eq]; rfl
@[simp] theorem publish_cfg : (publish s).cfg = s.cfg := by rw [publish_eq]; rfl
@[simp] theorem publish_port : (publish s).port = s.port := by rw [publish_eq]; rfl
@[simp] theorem publish_result : (publish s).result = s.result := by rw [publish_eq]; rfl
@[simp] theorem publish_draws : (publish s).draws = s.draws := by rw [publish_eq]; rfl
end

/-! ### The buses: every way an access can go -/

/-- A bus read changes at most the state of the collaborator it calls (20_memory.md R46). -/
theorem busRead_cases (s : State) (a : Addr) :
    (busRead s a).2 = s ∨ (∃ x, (busRead s a).2 = s.setIos x) ∨ (∃ x, (busRead s a).2 = s.setApus x) := by
  unfold busRead
  split
  case h_3 | h_7 | h_8 => exact .inr (.inl ⟨_, rfl⟩)
  case h_10 => exact .inr (.inr ⟨_, rfl⟩)
  all_goals exact .inl rfl

/-- Everything a bus write can do (40_bus_read_write.md R113). -/
theorem busWrite_cases (s : State) (a : Addr) (v : Byte) :
    busWrite s a v = s
    ∨ busWrite s a v = s.setCtrl (s.ctrl.write a v)
    ∨ busWrite s a v = ioWriteAt s a v
    ∨ busWrite s a v = apuWriteAt s a v
    ∨ (∃ i, busWrite s a v = s.setEram (s.eram.write i v))
    ∨ (∃ i, busWrite s a v = s.setWram (s.wram.write i v))
    ∨ (∃ i, busWrite s a v = s.setHram (s.hram.write i v))
    ∨ busWrite s a v = s.setIfl v
    ∨ busWrite s a v = s.setIe v := by
  unfold busWrite
  split
  case h_1 | h_2 => exact .inr (.inl rfl)
  case h_3 | h_7 | h_8 => exact .inr (.inr (.inl rfl))
  case h_4 =>
    unfold writeEram
    split
    · exact .inr (.inr (.inr (.inr (.inl ⟨_, rfl⟩))))
    · exact .inl rfl
  case h_5 => exact .inr (.inr (.inr (.inr (.inr (.inl ⟨_, rfl⟩)))))
  case h_6 => exact .inl rfl
  case h_9 => exact .inr (.inr (.inr (.inr (.inr (.inr (.inr (.inl rfl)))))))
  case h_10 => exact .inr (.inr (.inr (.inl rfl)))
  case h_11 => exact .inr (.inr (.inr (.inr (.inr (.inr (.inl ⟨_, rfl⟩))))))
  case h_12 => exact .inr (.inr (.inr (.inr (.inr (.inr (.inr (.inr rfl)))))))

/-- What the callbacks and the end of one `io_step` call keep, the call keeps: the induction over an interaction, once. -/
theorem runIo_keeps {P : State → Prop} {p : Addr} (hios : ∀ s x, P s → P (s.setIos x))
    (hapus : ∀ s x, P s → P (s.setApus x)) (hwr : ∀ s a v, P s → P (busWrite s a v))
    (hirq : ∀ s i, P s → P (s.setIfl (setSource s.ifl i))) (prog : IoProg p) :
    ∀ s, P s → P (runIo prog s) := by
  induction prog with
  | done x => exact fun s h => hios s x h
  | read a k ih =>
    intro s h
    refine ih _ _ ?_
    obtain h' | ⟨x, h'⟩ | ⟨x, h'⟩ := busRead_cases s a.addr <;> rw [h']
    · exact h
    · exact hios s x h
    · exact hapus s x h
  | write a v k ih => exact fun s h => ih _ (hwr s a.addr v h)
  | irq i k ih => exact fun s h => ih _ (hirq s i h)

/-! ### The controller -/

/-- A control-register write never changes the variant (10_state.md R16). -/
@[simp] theorem Controller.write_variant (a : Addr) (v : Byte) (c : Controller) :
    (c.write a v).variant = c.variant := by
  unfold Controller.write
  split
  · cases c <;> rfl
  · rfl

theorem romb5Of_ne_zero (v : Byte) : romb5Of v ≠ 0#5 := by
  unfold romb5Of
  split
  · decide
  · assumption

theorem romb7Of_ne_zero (v : Byte) : romb7Of v ≠ 0#7 := by
  unfold romb7Of
  split
  · decide
  · assumption

/-! ### Offsets -/

/-- Within 16 bits, an address less a base at or below it. -/
theorem sub_base_toNat {a b : Addr} (h : b.toNat ≤ a.toNat) : (a - b).toNat = a.toNat - b.toNat := by
  rw [BitVec.toNat_sub]
  omega

theorem romxOffset_eq (bank : Nat) {a : Addr} (h : 0x4000 ≤ a.toNat) :
    romxOffset bank a = bank * 0x4000 + (a.toNat - 0x4000) := by
  rw [romxOffset, sub_base_toNat (b := 0x4000#16) h]
  rfl

theorem eramOffset_eq (bank : Nat) {a : Addr} (h : 0xA000 ≤ a.toNat) :
    eramOffset bank a = bank * 0x2000 + (a.toNat - 0xA000) := by
  rw [eramOffset, sub_base_toNat (b := 0xA000#16) h]
  rfl

theorem wramOffset_eq {a : Addr} (h : 0xC000 ≤ a.toNat) : wramOffset a = a.toNat - 0xC000 :=
  sub_base_toNat (b := 0xC000#16) h

theorem hramOffset_eq {a : Addr} (h : 0xFF80 ≤ a.toNat) : hramOffset a = a.toNat - 0xFF80 :=
  sub_base_toNat (b := 0xFF80#16) h

/-- The switchable window's offset is `XLAT_ROM`'s (41_bank_controller.md R150). -/
theorem xlatRomOffset_romx (bank : Nat) {a : Addr} (h : 0x4000 ≤ a.toNat ∧ a.toNat ≤ 0x7FFF) :
    xlatRomOffset bank a = romxOffset bank a := by
  unfold xlatRomOffset
  rw [if_neg (by omega), if_pos h.2]

/-- The RAM window's offset is `XLAT_RAM`'s (41_bank_controller.md R151). -/
theorem xlatRamOffset_eram (bank : Nat) {a : Addr} (h : 0xA000 ≤ a.toNat ∧ a.toNat ≤ 0xBFFF) :
    xlatRamOffset bank a = eramOffset bank a := by
  rw [xlatRamOffset, eramOffset_eq bank h.1, BitVec.toNat_setWidth]
  have hlow : a.toNat % 2 ^ 13 = a.toNat - 0xA000 := by omega
  rw [hlow]

end Sys2Proof.Machine
end

