-- ==== Sys2Proof/Laws/Frame.lean ====
section
/-! SUPPORT. Laws/Frame.lean: what no bus access, no `io_step` call and no part of STEP can change. -/

namespace Sys2Proof.Machine

/-- What no bus access and no callback reaches: the image, the variant, the length of external RAM, the synth, the
counters, and the model's own fields. -/
abbrev OutOfReach (s t : State) : Prop :=
  t.cart = s.cart ∧ t.ctrl.variant = s.ctrl.variant ∧ t.eram.size = s.eram.size ∧ t.synth = s.synth
    ∧ t.ioRem = s.ioRem ∧ t.apuRem = s.apuRem ∧ t.cycTotal = s.cycTotal
    ∧ t.ioDelivered = s.ioDelivered ∧ t.apuDelivered = s.apuDelivered
    ∧ t.cfg = s.cfg ∧ t.port = s.port ∧ t.draws = s.draws ∧ t.result = s.result

theorem outOfReach_refl (s : State) : OutOfReach s s :=
  ⟨rfl, rfl, rfl, rfl, rfl, rfl, rfl, rfl, rfl, rfl, rfl, rfl, rfl⟩

theorem outOfReach_busRead (s : State) (a : Addr) : OutOfReach s (busRead s a).2 := by
  obtain h | ⟨x, h⟩ | ⟨x, h⟩ := busRead_cases s a <;> rw [h] <;> exact outOfReach_refl s

theorem outOfReach_busWrite {s t : State} (a : Addr) (v : Byte) (h : OutOfReach s t) :
    OutOfReach s (busWrite t a v) := by
  obtain h' | h' | h' | h' | ⟨i, h'⟩ | ⟨i, h'⟩ | ⟨i, h'⟩ | h' | h' := busWrite_cases t a v <;> rw [h']
  case inr.inl => exact ⟨h.1, (Controller.write_variant _ _ _).trans h.2.1, h.2.2⟩
  case inr.inr.inr.inl => simpa [OutOfReach, apuWriteAt] using h
  case inr.inr.inr.inr.inl => exact ⟨h.1, h.2.1, (Memory.write_size _ _ _).trans h.2.2.1, h.2.2.2⟩
  all_goals exact h

/-- One `io_step` call, with whatever callbacks, stays within reach (43_step_coordinator.md R188). -/
theorem outOfReach_runIo {p : Addr} (prog : IoProg p) (s : State) : OutOfReach s (runIo prog s) :=
  runIo_keeps (P := OutOfReach s) (fun _ _ h => h) (fun _ _ h => h) (fun _ a v h => outOfReach_busWrite a v h)
    (fun _ _ h => h) prog s (outOfReach_refl s)

/-- The I/O part of STEP delivers its chunks and changes nothing else that is out of the callbacks' reach. -/
theorem ioAdvance_foldl (l : List Nat) (s : State) :
    (l.foldl ioAdvance s).ioDelivered = s.ioDelivered + l.sum
      ∧ OutOfReach s { l.foldl ioAdvance s with ioDelivered := s.ioDelivered } := by
  induction l generalizing s with
  | nil => exact ⟨rfl, outOfReach_refl s⟩
  | cons c l ih =>
    obtain ⟨h1, h2⟩ := ih (ioAdvance s c)
    have hf := outOfReach_runIo (Config.ioStep s.cfg.ifAddr s.ios c) s
    simp only [List.foldl_cons, List.sum_cons]
    refine ⟨?_, ?_⟩
    · rw [h1]
      simp only [ioAdvance, hf]
      omega
    · simp only [OutOfReach, ioAdvance] at h2 hf ⊢
      simp_all

/-- The audio part of STEP changes `APUS` and its counter, nothing else (43_step_coordinator.md R180). -/
theorem apuAdvance_foldl (l : List Nat) (s : State) :
    l.foldl apuAdvance s
      = { s with apus := l.foldl Config.apuStep s.apus, apuDelivered := s.apuDelivered + l.sum } := by
  induction l generalizing s with
  | nil => rfl
  | cons c l ih =>
    rw [List.foldl_cons, ih]
    simp [apuAdvance, Nat.add_assoc]

end Sys2Proof.Machine
end

