-- ==== Sys2Proof/Laws/PerInstr.lean ====
section
/-! SUPPORT. Laws/PerInstr.lean: statements about an operation as syntax, one lemma per constructor. -/

namespace Sys2Proof.Laws.EncodingForm

/-- An operation's packet carries exactly the operand words its format has: a 64-bit number only for STEP, LOAD_ROM and
ATTACH_SYNTH, bytes only for an image (30_encoding.md R82). -/
def Statement (i : Instr) : Prop :=
  ∀ ifAddr, ((encode ifAddr i).ext = [] ∨ (encode ifAddr i).format = .p)
    ∧ ((encode ifAddr i).bytes = [] ∨ Op.ofCode (opField (encode ifAddr i).word) = some .loadRom)

theorem rdRom0 (a : Addr) : Statement (.rdRom0 a) := fun _ => ⟨.inl rfl, .inl rfl⟩
theorem rdRomx (a : Addr) : Statement (.rdRomx a) := fun _ => ⟨.inl rfl, .inl rfl⟩
theorem rdVram (a : Addr) : Statement (.rdVram a) := fun _ => ⟨.inl rfl, .inl rfl⟩
theorem rdEram (a : Addr) : Statement (.rdEram a) := fun _ => ⟨.inl rfl, .inl rfl⟩
theorem rdWram (a : Addr) : Statement (.rdWram a) := fun _ => ⟨.inl rfl, .inl rfl⟩
theorem rdUnmapped (a : Addr) : Statement (.rdUnmapped a) := fun _ => ⟨.inl rfl, .inl rfl⟩
theorem rdOam (a : Addr) : Statement (.rdOam a) := fun _ => ⟨.inl rfl, .inl rfl⟩
theorem rdIo (a : Addr) : Statement (.rdIo a) := fun _ => ⟨.inl rfl, .inl rfl⟩
theorem rdIf : Statement (.rdIf) := fun _ => ⟨.inl rfl, .inl rfl⟩
theorem rdApu (a : Addr) : Statement (.rdApu a) := fun _ => ⟨.inl rfl, .inl rfl⟩
theorem rdHram (a : Addr) : Statement (.rdHram a) := fun _ => ⟨.inl rfl, .inl rfl⟩
theorem rdIe : Statement (.rdIe) := fun _ => ⟨.inl rfl, .inl rfl⟩
theorem wrMbc (a : Addr) (v : Byte) : Statement (.wrMbc a v) := fun _ => ⟨.inl rfl, .inl rfl⟩
theorem wrVram (a : Addr) (v : Byte) : Statement (.wrVram a v) := fun _ => ⟨.inl rfl, .inl rfl⟩
theorem wrEram (a : Addr) (v : Byte) : Statement (.wrEram a v) := fun _ => ⟨.inl rfl, .inl rfl⟩
theorem wrWram (a : Addr) (v : Byte) : Statement (.wrWram a v) := fun _ => ⟨.inl rfl, .inl rfl⟩
theorem wrUnmapped (a : Addr) (v : Byte) : Statement (.wrUnmapped a v) := fun _ => ⟨.inl rfl, .inl rfl⟩
theorem wrOam (a : Addr) (v : Byte) : Statement (.wrOam a v) := fun _ => ⟨.inl rfl, .inl rfl⟩
theorem wrIo (a : Addr) (v : Byte) : Statement (.wrIo a v) := fun _ => ⟨.inl rfl, .inl rfl⟩
theorem wrIf (v : Byte) : Statement (.wrIf v) := fun _ => ⟨.inl rfl, .inl rfl⟩
theorem wrApu (a : Addr) (v : Byte) : Statement (.wrApu a v) := fun _ => ⟨.inl rfl, .inl rfl⟩
theorem wrHram (a : Addr) (v : Byte) : Statement (.wrHram a v) := fun _ => ⟨.inl rfl, .inl rfl⟩
theorem wrIe (v : Byte) : Statement (.wrIe v) := fun _ => ⟨.inl rfl, .inl rfl⟩
theorem noneCtrl (a : Addr) (v : Byte) : Statement (.noneCtrl a v) := fun _ => ⟨.inl rfl, .inl rfl⟩
theorem t1Ramen (a : Addr) (v : Byte) : Statement (.t1Ramen a v) := fun _ => ⟨.inl rfl, .inl rfl⟩
theorem t1Romb (a : Addr) (v : Byte) : Statement (.t1Romb a v) := fun _ => ⟨.inl rfl, .inl rfl⟩
theorem t1Sec (a : Addr) (v : Byte) : Statement (.t1Sec a v) := fun _ => ⟨.inl rfl, .inl rfl⟩
theorem t1Mode (a : Addr) (v : Byte) : Statement (.t1Mode a v) := fun _ => ⟨.inl rfl, .inl rfl⟩
theorem t3Ramen (a : Addr) (v : Byte) : Statement (.t3Ramen a v) := fun _ => ⟨.inl rfl, .inl rfl⟩
theorem t3Romb (a : Addr) (v : Byte) : Statement (.t3Romb a v) := fun _ => ⟨.inl rfl, .inl rfl⟩
theorem t3Ramb (a : Addr) (v : Byte) : Statement (.t3Ramb a v) := fun _ => ⟨.inl rfl, .inl rfl⟩
theorem t3Latch (a : Addr) (v : Byte) : Statement (.t3Latch a v) := fun _ => ⟨.inl rfl, .inl rfl⟩
theorem t5Ramen (a : Addr) (v : Byte) : Statement (.t5Ramen a v) := fun _ => ⟨.inl rfl, .inl rfl⟩
theorem t5RombLo (a : Addr) (v : Byte) : Statement (.t5RombLo a v) := fun _ => ⟨.inl rfl, .inl rfl⟩
theorem t5RombHi (a : Addr) (v : Byte) : Statement (.t5RombHi a v) := fun _ => ⟨.inl rfl, .inl rfl⟩
theorem t5Ramb (a : Addr) (v : Byte) : Statement (.t5Ramb a v) := fun _ => ⟨.inl rfl, .inl rfl⟩
theorem t5Rsvd (a : Addr) (v : Byte) : Statement (.t5Rsvd a v) := fun _ => ⟨.inl rfl, .inl rfl⟩
theorem rd (a : Addr) : Statement (.rd a) := fun _ => ⟨.inl rfl, .inl rfl⟩
theorem wr (a : Addr) (v : Byte) : Statement (.wr a v) := fun _ => ⟨.inl rfl, .inl rfl⟩
theorem step (cycles : Cycles) : Statement (.step cycles) := fun _ => ⟨.inr rfl, .inl rfl⟩
theorem loadRom (image : List Byte) : Statement (.loadRom image) := fun _ => ⟨.inr rfl, .inr (by rw [encode, packetP, opField_wordP, Op.ofCode_code])⟩
theorem reset : Statement (.reset) := fun _ => ⟨.inl rfl, .inl rfl⟩
theorem getIeRaw : Statement (.getIeRaw) := fun _ => ⟨.inl rfl, .inl rfl⟩
theorem getIfRaw : Statement (.getIfRaw) := fun _ => ⟨.inl rfl, .inl rfl⟩
theorem setIfRaw (v : Byte) : Statement (.setIfRaw v) := fun _ => ⟨.inl rfl, .inl rfl⟩
theorem irqEnable (i : Source) : Statement (.irqEnable i) := fun _ => ⟨.inl rfl, .inl rfl⟩
theorem irqDisable (i : Source) : Statement (.irqDisable i) := fun _ => ⟨.inl rfl, .inl rfl⟩
theorem irqRequest (i : Source) : Statement (.irqRequest i) := fun _ => ⟨.inl rfl, .inl rfl⟩
theorem irqClear (i : Source) : Statement (.irqClear i) := fun _ => ⟨.inl rfl, .inl rfl⟩
theorem irqAny : Statement (.irqAny) := fun _ => ⟨.inl rfl, .inl rfl⟩
theorem irqResolve : Statement (.irqResolve) := fun _ => ⟨.inl rfl, .inl rfl⟩
theorem curRomBank : Statement (.curRomBank) := fun _ => ⟨.inl rfl, .inl rfl⟩
theorem xlatRom (a : Addr) : Statement (.xlatRom a) := fun _ => ⟨.inl rfl, .inl rfl⟩
theorem xlatRam (a : Addr) : Statement (.xlatRam a) := fun _ => ⟨.inl rfl, .inl rfl⟩
theorem mbcRead (a : Addr) : Statement (.mbcRead a) := fun _ => ⟨.inl rfl, .inl rfl⟩
theorem mbcWrite (a : Addr) (v : Byte) : Statement (.mbcWrite a v) := fun _ => ⟨.inl rfl, .inl rfl⟩
theorem attachSynth (h : Handle) : Statement (.attachSynth h) := fun _ => ⟨.inr rfl, .inl rfl⟩
theorem framebuffer : Statement (.framebuffer) := fun _ => ⟨.inl rfl, .inl rfl⟩
theorem isDmaActive : Statement (.isDmaActive) := fun _ => ⟨.inl rfl, .inl rfl⟩
theorem joypadInject (j : Byte) : Statement (.joypadInject j) := fun _ => ⟨.inl rfl, .inl rfl⟩

end Sys2Proof.Laws.EncodingForm
end

