-- ==== Sys2Proof/Laws/Step.lean ====
section
/-! SUPPORT. Laws/Step.lean: the three ways a step goes, and what presenting a table word changes. -/

namespace Sys2Proof.Machine

theorem step_idle {s : State} (h : s.port = []) : step s = .next s := by
  simp [step, fetch, h]

theorem step_runs {s : State} {p : Packet} {rest : List Packet} {i : Instr} (hp : s.port = p :: rest)
    (hd : decode s.cfg.ifAddr p = .ok i) : step s = exec i { s with port := rest } := by
  simp [step, fetch, hp, hd]

theorem step_refuses {s : State} {p : Packet} {rest : List Packet} {e : DecodeError} (hp : s.port = p :: rest)
    (hd : decode s.cfg.ifAddr p = .error e) : step s = .refused (.reservedPacket e) := by
  simp [step, fetch, hp, hd]

/-- Everything a step that answers a next state can have done. -/
theorem step_cases {s t : State} (h : step s = .next t) :
    (s.port = [] ∧ t = s)
    ∨ ∃ p rest i, s.port = p :: rest ∧ decode s.cfg.ifAddr p = .ok i ∧ exec i { s with port := rest } = .next t := by
  cases hp : s.port with
  | nil =>
    rw [step_idle hp] at h
    exact .inl ⟨rfl, by simpa using h.symm⟩
  | cons p rest =>
    cases hd : decode s.cfg.ifAddr p with
    | ok i => exact .inr ⟨p, rest, i, rfl, hd, by rwa [step_runs hp hd] at h⟩
    | error e => rw [step_refuses hp hd] at h; cases h

/-- A packet that is no key of an `IO` or `IF` row decodes the same wherever `IF_ADDR` is (30_encoding.md R73). -/
theorem decode_eq_of_not_consultsIfAddr (x y : Addr) {p : Packet} (h : consultsIfAddr p = false) :
    decode x p = decode y p := by
  unfold decode
  cases hf : p.format <;> simp only
  have ha : Config.ifAddrAllowed (keyAddr p.word) = false := by simpa [consultsIfAddr, hf] using h
  simp only [decodeA, readOp, writeOp, regionOf_eq_of_not_allowed x y ha]

/-- Presenting any other table word changes `port` alone. -/
theorem withFetchWord_of_not_consultsIfAddr (s : State) {nbits w : Nat} (h : consultsIfAddr (tablePacket nbits w) = false) :
    s.withFetchWord nbits w = { s with port := tablePacket nbits w :: s.port } := by
  simp [State.withFetchWord, h, present]

/-- The step after a table word is presented runs what `decodeTableWord` reads from it, in a block that differs from the
given one at most in `IF_ADDR`. -/
theorem step_withFetchWord (s : State) {nbits w : Nat} {i : Instr} (h : decodeTableWord nbits w = some i) :
    step (s.withFetchWord nbits w)
      = exec i (if consultsIfAddr (tablePacket nbits w) then s.atTableIfAddr else s) := by
  have hd : decode tableIfAddr (tablePacket nbits w) = .ok i := by
    unfold decodeTableWord at h
    split at h
    · split at h <;> simp_all
    · cases h
  unfold State.withFetchWord
  refine step_runs rfl ?_
  by_cases hc : consultsIfAddr (tablePacket nbits w) = true
  · simpa [hc, present, State.atTableIfAddr] using hd
  · have hc' : consultsIfAddr (tablePacket nbits w) = false := by simpa using hc
    rw [← hd]
    exact decode_eq_of_not_consultsIfAddr _ _ hc'

end Sys2Proof.Machine
end

