-- ==== Sys2Proof/Tests/Slice0.lean ====
section
/-! SUPPORT. Tests/Slice0.lean: tests of the model, expected values from 30_encoding.md and 95_test_vectors.md; then the
witnesses: states and operands that meet the hypotheses of each obligation. -/

namespace Sys2Proof.Tests

open Sys2Proof Sys2Proof.Machine

/-! ### Helpers -/

/-- `IF_ADDR` of the tests (95_test_vectors.md, conventions). -/
def ifa : Addr := 0xFF0F#16

def decodesTo (p : Packet) (i : Instr) : Bool :=
  match decode ifa p with
  | .ok j => decide (j = i)
  | .error _ => false

def refusedFor (p : Packet) (e : DecodeError) : Bool :=
  match decode ifa p with
  | .ok _ => false
  | .error d => decide (d = e)

/-- A format `P` word with nothing after it. -/
def pw (w : BitVec 32) : Packet := ⟨.p, w, [], []⟩

/-- A format `A` word: the key, the datum above it. -/
def aw (w : BitVec 32) : Packet := ⟨.a, w, [], []⟩

/-- A format `M` word: the key, the datum above it. -/
def mw (w : BitVec 32) : Packet := ⟨.m, w, [], []⟩

/-- The parameters of the test vectors (95_test_vectors.md, conventions). -/
def testCfg : Cfg :=
  { ifAddr := ifa, t1HighInMode1 := false, ioChunkMax := Config.ioChunkMax, apuChunkMax := Config.apuChunkMax
    ifAddrOk := by decide }

/-- The state after RESET under those parameters. -/
def start : State := State.created testCfg [] 0

/-- A state with an image, external RAM of a size, a controller, `IE` and `IF`. -/
def st (cart : List Byte) (eramSize : Nat) (c : Controller) (ie ifl : Byte) : State :=
  { start with cart := cart, eram := Memory.fresh eramSize 0, ctrl := c, ie := ie, ifl := ifl }

/-- A part of the state an operation leaves. -/
def after {α : Type} (f : State → α) (i : Instr) (s : State) : Option α :=
  match exec i s with
  | .next t => some (f t)
  | .fault _ => none
  | .refused _ => none

def t1 (en : Bool) (b : BitVec 5) (sec : BitVec 2) (mode : Bool) : Controller := .type1 ⟨en, b, sec, mode⟩

def t3 (en : Bool) (b : BitVec 7) (ram : BitVec 4) : Controller := .type3 ⟨en, b, ram⟩

def t5 (en : Bool) (b : BitVec 9) (ram : BitVec 4) : Controller := .type5 ⟨en, b, ram⟩

/-- `ERAM_LEN` = 0x8000 under a controller. -/
def banked (c : Controller) : State := st [] 0x8000 c 0x00#8 0x00#8

/-- The interrupt bytes alone. -/
def irq (ie ifl : Byte) : State := st [] 0 .none ie ifl

/-- A state that presents the packets. -/
def presenting (ps : List Packet) : State := { start with port := ps }

/-! ### WellFormed refuses an ill-formed term for each check -/

theorem test_wf_refuses_reads :
    ([Instr.rdRom0 0x4000#16, .rdRomx 0x3FFF#16, .rdRomx 0x8000#16, .rdVram 0x7FFF#16, .rdVram 0xA000#16, .rdEram 0x9FFF#16,
        .rdEram 0xC000#16, .rdWram 0xBFFF#16, .rdWram 0xE000#16, .rdUnmapped 0xDFFF#16, .rdUnmapped 0xFE00#16]
      ++ [.rdUnmapped 0xFE9F#16, .rdUnmapped 0xFF00#16, .rdOam 0xFDFF#16, .rdOam 0xFEA0#16, .rdIo 0xFEFF#16, .rdIo 0xFF0F#16,
        .rdIo 0xFF10#16, .rdIo 0xFF3F#16, .rdIo 0xFF80#16, .rdApu 0xFF0F#16, .rdApu 0xFF40#16, .rdHram 0xFF7F#16,
        .rdHram 0xFFFF#16] : List Instr).all (fun i => !i.wellFormed ifa) = true := by decide

theorem test_wf_refuses_writes :
    ([Instr.wrMbc 0x8000#16 0#8, .wrVram 0x7FFF#16 0#8, .wrEram 0xC000#16 0#8, .wrWram 0xE000#16 0#8,
        .wrUnmapped 0xFE00#16 0#8, .wrOam 0xFEA0#16 0#8, .wrIo 0xFF0F#16 0#8, .wrApu 0xFF40#16 0#8, .wrHram 0xFFFF#16 0#8] : List Instr).all (fun i => !i.wellFormed ifa) = true := by decide

theorem test_wf_refuses_control :
    ([Instr.noneCtrl 0x8000#16 0#8, .t1Ramen 0x2000#16 0#8, .t1Romb 0x1FFF#16 0#8, .t1Sec 0x3FFF#16 0#8,
        .t1Mode 0x5FFF#16 0#8, .t3Ramen 0x2000#16 0#8, .t3Romb 0x4000#16 0#8, .t3Ramb 0x6000#16 0#8, .t3Latch 0x8000#16 0#8]
      ++ [.t5Ramen 0x2000#16 0#8, .t5RombLo 0x3000#16 0#8, .t5RombHi 0x2FFF#16 0#8, .t5Ramb 0x6000#16 0#8,
        .t5Rsvd 0x5FFF#16 0#8] : List Instr).all (fun i => !i.wellFormed ifa) = true := by decide

/-- An image whose length does not fit the 64-bit number is ill-formed. -/
theorem test_wf_refuses_image (l : List Byte) (h : 2 ^ 64 ≤ l.length) : Instr.wellFormed ifa (.loadRom l) = false :=
  decide_eq_false (Nat.not_lt.mpr h)

/-! ### Decoding: words written out from the spec's encodings -/

/-- Format `P`, the words of 95_test_vectors.md section 2.10. -/
theorem test_decode_port :
    ([(pw 0x00A00000#32, Instr.rd 0xA000#16), (pw 0x00BFFF00#32, .rd 0xBFFF#16), (pw 0x0100000B#32, .wr 0x0000#16 0x0B#8),
        (pw 0x012000FF#32, .wr 0x2000#16 0xFF#8), (pw 0x01FF0F14#32, .wr 0xFF0F#16 0x14#8),
        (⟨.p, 0x02000000#32, [0x20001#64], []⟩, .step 0x20001#64),
        (⟨.p, 0x03000000#32, [2#64], [0x11#8, 0x22#8]⟩, .loadRom [0x11#8, 0x22#8]),
        (pw 0x04000000#32, .reset), (pw 0x10000000#32, .getIeRaw), (pw 0x11000000#32, .getIfRaw)]
      ++ [(pw 0x12000014#32, .setIfRaw 0x14#8), (pw 0x13000000#32, .irqEnable .vblank), (pw 0x14000002#32, .irqDisable .timer),
        (pw 0x15000004#32, .irqRequest .joypad), (pw 0x16000002#32, .irqClear .timer), (pw 0x17000000#32, .irqAny),
        (pw 0x18000000#32, .irqResolve), (pw 0x20000000#32, .curRomBank), (pw 0x21400000#32, .xlatRom 0x4000#16)]
      ++ [(pw 0x22A01000#32, .xlatRam 0xA010#16), (pw 0x23000000#32, .mbcRead 0x0000#16),
        (pw 0x24200005#32, .mbcWrite 0x2000#16 0x05#8), (⟨.p, 0x30000000#32, [7#64], []⟩, .attachSynth 7#64),
        (pw 0x31000000#32, .framebuffer), (pw 0x32000000#32, .isDmaActive), (pw 0x3300000E#32, .joypadInject 0x0E#8)] : List (Packet × Instr)).all (fun r => decodesTo r.1 r.2) = true := by decide

/-- Format `A` reads at the first and last address of every region (95_test_vectors.md section 2.1). -/
theorem test_decode_reads :
    ([(aw 0x00000000#32, Instr.rdRom0 0x0000#16), (aw 0x00003FFF#32, .rdRom0 0x3FFF#16), (aw 0x00004000#32, .rdRomx 0x4000#16),
        (aw 0x00007FFF#32, .rdRomx 0x7FFF#16), (aw 0x00008000#32, .rdVram 0x8000#16), (aw 0x00009FFF#32, .rdVram 0x9FFF#16),
        (aw 0x0000A000#32, .rdEram 0xA000#16), (aw 0x0000BFFF#32, .rdEram 0xBFFF#16), (aw 0x0000C000#32, .rdWram 0xC000#16)]
      ++ [(aw 0x0000DFFF#32, .rdWram 0xDFFF#16), (aw 0x0000E000#32, .rdUnmapped 0xE000#16),
        (aw 0x0000FDFF#32, .rdUnmapped 0xFDFF#16), (aw 0x0000FE00#32, .rdOam 0xFE00#16), (aw 0x0000FE9F#32, .rdOam 0xFE9F#16),
        (aw 0x0000FEA0#32, .rdUnmapped 0xFEA0#16), (aw 0x0000FEFF#32, .rdUnmapped 0xFEFF#16), (aw 0x0000FF00#32, .rdIo 0xFF00#16)]
      ++ [(aw 0x0000FF0E#32, .rdIo 0xFF0E#16), (aw 0x0000FF0F#32, .rdIf), (aw 0x0000FF10#32, .rdApu 0xFF10#16),
        (aw 0x0000FF3F#32, .rdApu 0xFF3F#16), (aw 0x0000FF40#32, .rdIo 0xFF40#16), (aw 0x0000FF7F#32, .rdIo 0xFF7F#16),
        (aw 0x0000FF80#32, .rdHram 0xFF80#16), (aw 0x0000FFFE#32, .rdHram 0xFFFE#16), (aw 0x0000FFFF#32, .rdIe)] : List (Packet × Instr)).all (fun r => decodesTo r.1 r.2) = true := by decide

/-- Format `A` writes: bit 16 set, the datum above the key (30_encoding.md R72; log 3). -/
theorem test_decode_writes :
    ([(aw 0x05010000#32, Instr.wrMbc 0x0000#16 0x05#8), (aw 0x05017FFF#32, .wrMbc 0x7FFF#16 0x05#8),
        (aw 0x05018000#32, .wrVram 0x8000#16 0x05#8), (aw 0x0501BFFF#32, .wrEram 0xBFFF#16 0x05#8),
        (aw 0x5A01C000#32, .wrWram 0xC000#16 0x5A#8), (aw 0x5501E000#32, .wrUnmapped 0xE000#16 0x55#8),
        (aw 0x1001FE00#32, .wrOam 0xFE00#16 0x10#8)]
      ++ [(aw 0x9101FF40#32, .wrIo 0xFF40#16 0x91#8), (aw 0x1401FF0F#32, .wrIf 0x14#8), (aw 0x8001FF11#32, .wrApu 0xFF11#16 0x80#8),
        (aw 0xC301FF80#32, .wrHram 0xFF80#16 0xC3#8), (aw 0xE501FFFF#32, .wrIe 0xE5#8)] : List (Packet × Instr)).all (fun r => decodesTo r.1 r.2) = true := by decide

/-- Format `M` keys: tag 0, 1, 3 or 5 in bits 18:16 (30_encoding.md R74). -/
theorem test_decode_control :
    ([(mw 0x05002000#32, Instr.noneCtrl 0x2000#16 0x05#8), (mw 0x0A011FFF#32, .t1Ramen 0x1FFF#16 0x0A#8),
        (mw 0x12012000#32, .t1Romb 0x2000#16 0x12#8), (mw 0x01015FFF#32, .t1Sec 0x5FFF#16 0x01#8),
        (mw 0x01016000#32, .t1Mode 0x6000#16 0x01#8), (mw 0x0A030000#32, .t3Ramen 0x0000#16 0x0A#8),
        (mw 0x45033FFF#32, .t3Romb 0x3FFF#16 0x45#8)]
      ++ [(mw 0x02034000#32, .t3Ramb 0x4000#16 0x02#8), (mw 0x01037FFF#32, .t3Latch 0x7FFF#16 0x01#8),
        (mw 0x0A051FFF#32, .t5Ramen 0x1FFF#16 0x0A#8), (mw 0x05052FFF#32, .t5RombLo 0x2FFF#16 0x05#8),
        (mw 0x01053000#32, .t5RombHi 0x3000#16 0x01#8), (mw 0x1F055FFF#32, .t5Ramb 0x5FFF#16 0x1F#8),
        (mw 0xFF056000#32, .t5Rsvd 0x6000#16 0xFF#8)] : List (Packet × Instr)).all (fun r => decodesTo r.1 r.2) = true := by decide

/-- The refused words of 95_test_vectors.md section 2.10, and packets that are no operation. -/
theorem test_refused_words :
    (refusedFor (pw 0x05000000#32) .reservedOp && refusedFor (pw 0x00400001#32) .unusedField
      && refusedFor (pw 0x15000005#32) .reservedSource && refusedFor (pw 0x15000012#32) .unusedField
      && refusedFor (pw 0x18000100#32) .unusedField && refusedFor (pw 0x02000000#32) .extension
      && refusedFor ⟨.p, 0x03000000#32, [3#64], [0x11#8]⟩ .extension && refusedFor (aw 0x00020000#32) .noSuchKey
      && refusedFor (aw 0x01000000#32) .unusedField && refusedFor (mw 0x00022000#32) .noSuchKey
      && refusedFor (mw 0x00018000#32) .noSuchKey && refusedFor (mw 0x000A2000#32) .noSuchKey) = true := by decide

/-- Words as spec/opcode_table.json numbers them: `match` values of some of its rows. -/
theorem test_table_words :
    decodeTableWord 17 0x1FF00 = some (.wrIo 0xFF00#16 0#8) ∧ decodeTableWord 17 0x04000 = some (.rdRomx 0x4000#16)
      ∧ decodeTableWord 19 0x53000 = some (.t5RombHi 0x3000#16 0#8) ∧ decodeTableWord 24 0x30000 = some (.t3Ramen 0x0000#16 0#8)
      ∧ decodeTableWord 32 0x15000002 = some (.irqRequest .timer) ∧ decodeTableWord 32 0x05000000 = none := by decide

/-! ### Meanings, one step each -/

theorem test_rd_rom0 : after State.result (.rdRom0 1#16) (st [0x11#8, 0x22#8] 0 .none 0#8 0#8) = some (.byte 0x22#8)
    ∧ after State.result (.rdRom0 2#16) (st [0x11#8, 0x22#8] 0 .none 0#8 0#8) = some (.byte 0xFF#8) := by decide

/-- Bank 0 is selectable under `Type5` (95_test_vectors.md E3). -/
theorem test_rd_romx : after State.result (.rdRomx 0x4001#16) (st [0x11#8, 0x22#8] 0 (t5 false 0#9 0#4) 0#8 0#8)
      = some (.byte 0x22#8)
    ∧ after State.result (.rdRomx 0x4001#16) (st [0x11#8, 0x22#8] 0 (t5 false 1#9 0#4) 0#8 0#8) = some (.byte 0xFF#8) := by
  decide

/-- 95_test_vectors.md T3-1. -/
theorem test_rd_eram_disabled : after State.result (.rdEram 0xA000#16) (banked (t3 false 1#7 0#4)) = some (.byte 0xFF#8) := by
  decide

/-- 95_test_vectors.md T1-7. -/
theorem test_wr_eram_bank : after (fun t => t.eram.cells) (.wrEram 0xA123#16 0x77#8) (banked (t1 true 0x1F#5 2#2 true))
    = some [(0x4123, 0x77#8)] := by decide

/-- 95_test_vectors.md T3-4: the write while disabled is lost. -/
theorem test_wr_eram_disabled : after (fun t => t.eram.cells) (.wr 0xA000#16 0x99#8) (banked (t3 false 1#7 0#4))
    = some [] := by decide

/-- 95_test_vectors.md B9 and P6 line 4. -/
theorem test_wr_wram : after (fun t => t.wram.cells) (.wr 0xDFFF#16 0x02#8) (irq 0#8 0#8) = some [(0x1FFF, 0x02#8)]
    ∧ after (fun t => busByte t 0xC000#16) (.wrWram 0xC000#16 0x5A#8) (irq 0#8 0#8)
      = some 0x5A#8 := by decide

/-- 95_test_vectors.md B22. -/
theorem test_wr_hram : after (fun t => (t.hram.cells, t.ie)) (.wr 0xFFFE#16 0x12#8) (irq 0#8 0#8)
    = some ([(0x7E, 0x12#8)], 0#8) := by decide

/-- A later write at a lower address is listed first; a second write replaces the byte (log 8). -/
theorem test_cells_canonical : cellsSet (cellsSet (cellsSet [] 5 1#8) 3 2#8) 5 7#8 = [(3, 2#8), (5, 7#8)] := by decide

/-- 95_test_vectors.md B10 and B12. -/
theorem test_unmapped : after State.result (.rdUnmapped 0xFEA0#16) (irq 0#8 0#8) = some (.byte 0xFF#8)
    ∧ after (fun t => (t.wram.cells, t.result)) (.wrUnmapped 0xE000#16 0x55#8) (irq 0#8 0#8) = some ([], .nothing) := by decide

/-- 95_test_vectors.md B18 and B23: upper bits stored. -/
theorem test_wr_if_ie : after State.ifl (.wr 0xFF0F#16 0xE1#8) (irq 0#8 0#8) = some 0xE1#8
    ∧ after State.ie (.wrIe 0xE5#8) (irq 0#8 0#8) = some 0xE5#8 := by decide

theorem test_rd_if_ie : after State.result .rdIf (irq 0x05#8 0xE1#8) = some (.byte 0xE1#8)
    ∧ after State.result .rdIe (irq 0x05#8 0xE1#8) = some (.byte 0x05#8) := by decide

/-- 95_test_vectors.md B15 and B16, on the shared operation. -/
theorem test_request_mask : orRequests 0xA0#8 0x03#8 = 0xA3#8 ∧ orRequests 0x00#8 0xFF#8 = 0x1F#8 := by decide

/-- 95_test_vectors.md section 2.3: the value stored by `WR 0x2000, v`. -/
theorem test_romb5 : [0x00#8, 0x05#8, 0x1F#8, 0x20#8, 0x21#8, 0x40#8, 0xE0#8, 0xFF#8].map romb5Of
    = [1#5, 5#5, 0x1F#5, 1#5, 1#5, 1#5, 1#5, 0x1F#5] := by decide

/-- 95_test_vectors.md section 2.4. -/
theorem test_romb7 : [0x00#8, 0x20#8, 0x45#8, 0x80#8, 0x81#8, 0xFF#8].map romb7Of
    = [1#7, 0x20#7, 0x45#7, 1#7, 1#7, 0x7F#7] := by decide

/-- 95_test_vectors.md T1-10. -/
theorem test_ramen : [0x0A#8, 0x1A#8, 0xFA#8, 0x00#8, 0x0B#8, 0xA0#8, 0xAA#8].map ramenOf
    = [true, true, true, false, false, false, true] := by decide

/-- 95_test_vectors.md T1-1 to T1-5, the bank and the two translations. -/
theorem test_type1_banks : (t1 false 0x12#5 1#2 false).romBank false = 0x32 ∧ (t1 false 1#5 2#2 false).romBank false = 0x41
    ∧ (t1 false 0x1F#5 3#2 true).romBank false = 0x1F ∧ (t1 false 0x1F#5 3#2 true).romBank true = 0x7F
    ∧ xlatRomOffset 0x32 0x4000#16 = 0xC8000 ∧ xlatRamOffset (t1 false 1#5 3#2 true).ramBank 0xA000#16 = 0x6000 := by decide

theorem test_t1_writes : after State.ctrl (.t1Romb 0x2000#16 0x12#8) (banked (t1 false 1#5 0#2 false))
      = some (t1 false 0x12#5 0#2 false)
    ∧ after State.ctrl (.wr 0x4000#16 0xFE#8) (banked (t1 false 1#5 0#2 true)) = some (t1 false 1#5 2#2 true) := by decide

theorem test_t1_mode : after State.ctrl (.wr 0x6000#16 0xFE#8) (banked (t1 true 1#5 3#2 true)) = some (t1 true 1#5 3#2 false)
    ∧ after State.ctrl (.t1Ramen 0x1FFF#16 0x1A#8) (banked (t1 false 1#5 0#2 true)) = some (t1 true 1#5 0#2 true) := by decide

theorem test_t3_writes : after State.ctrl (.wr 0x3FFF#16 0x45#8) (banked (t3 false 1#7 2#4)) = some (t3 false 0x45#7 2#4)
    ∧ after State.ctrl (.t3Ramb 0x4000#16 0x02#8) (banked (t3 true 1#7 0#4)) = some (t3 true 1#7 2#4) := by decide

/-- 95_test_vectors.md section 2.5: the halves of the nine-bit bank. -/
theorem test_t5_halves : after State.ctrl (.wr 0x2FFF#16 0x00#8) (banked (t5 false 0x1FF#9 0#4)) = some (t5 false 0x100#9 0#4)
    ∧ after State.ctrl (.wr 0x3FFF#16 0xFE#8) (banked (t5 false 0x1FF#9 0#4)) = some (t5 false 0x0FF#9 0#4) := by decide

/-- 95_test_vectors.md T5-7 and T5-8. -/
theorem test_t5_ramb : after State.ctrl (.wr 0x4000#16 0x1F#8) (banked (t5 false 0x100#9 0#4)) = some (t5 false 0x100#9 0xF#4)
    ∧ after State.ctrl (.wr 0x7FFF#16 0xFF#8) (banked (t5 false 0x100#9 0#4)) = some (t5 false 0x100#9 0#4) := by decide

/-- 95_test_vectors.md section 2.6. -/
theorem test_translations : after State.result (.xlatRom 0xC123#16) (banked (t3 true 2#7 1#4)) = some (.offset 0x8123)
    ∧ after State.result (.xlatRam 0x0010#16) (banked (t3 true 2#7 1#4)) = some (.offset 0x2010) := by decide

theorem test_mbc : after State.result (.mbcRead 0xA000#16) (banked (t3 true 2#7 1#4)) = some (.byte 0xFF#8)
    ∧ after State.ctrl (.mbcWrite 0xA000#16 0x0A#8) (banked (t3 false 2#7 1#4)) = some (t3 false 2#7 1#4) := by decide

/-- 95_test_vectors.md P1 lines 11 and 12. -/
theorem test_cur_rom_bank : after State.result .curRomBank (banked (t1 false 7#5 1#2 false)) = some (.index 0x27)
    ∧ after State.result (.xlatRom 0x4000#16) (banked (t1 false 7#5 1#2 false)) = some (.offset 0x9C000) := by decide

/-- 95_test_vectors.md section 2.7, the table. -/
theorem test_prio : ([(0x05#8, 0x14#8), (0x00#8, 0x1F#8), (0x1F#8, 0x1F#8), (0x1E#8, 0x1F#8), (0x1F#8, 0x18#8), (0x10#8, 0x10#8),
      (0x0A#8, 0x15#8), (0xE0#8, 0xE0#8), (0xFF#8, 0xFF#8)] : List (Byte × Byte)).map (fun r => prio r.1 r.2)
    = [some .timer, none, some .vblank, some .lcdStat, some .serial, some .joypad, none, none, some .vblank] := by decide

theorem test_irq_resolve : after State.result .irqResolve (irq 0x05#8 0x14#8) = some (.source (some .timer))
    ∧ after State.result .irqAny (irq 0xFF#8 0xE0#8) = some (.bool false) := by decide

/-- 95_test_vectors.md section 2.7, the named operations. -/
theorem test_irq_enable : after State.ie (.irqEnable .joypad) (irq 0xE5#8 0#8) = some 0xF5#8
    ∧ after State.ie (.irqDisable .timer) (irq 0xF5#8 0#8) = some 0xF1#8 := by decide

theorem test_irq_request : after State.ifl (.irqRequest .serial) (irq 0#8 0xA0#8) = some 0xA8#8
    ∧ after State.ifl (.irqClear .serial) (irq 0#8 0xA8#8) = some 0xA0#8 := by decide

theorem test_raw : after State.ifl (.setIfRaw 0x14#8) (irq 0#8 0xFF#8) = some 0x14#8
    ∧ after State.result .getIfRaw (irq 0#8 0xE4#8) = some (.byte 0xE4#8) := by decide

/-- 95_test_vectors.md section 2.8. -/
theorem test_chunks : chunks 0 4 = [] ∧ chunks 9 4 = [4, 4, 1] ∧ chunks 3 1 = [1, 1, 1]
    ∧ chunks 0x11250 0xFFFF = [0xFFFF, 0x1251] ∧ chunks 0x100000005 0xFFFFFFFF = [0xFFFFFFFF, 0x6] := by decide

/-- 95_test_vectors.md section 2.8: `STEP 0`. -/
theorem test_step_zero : after (fun t => (t.cycTotal, t.ioDelivered, t.apuDelivered, t.snap)) (.step 0#64) (irq 0#8 0#8)
    = some (0, 0, 0, none) := by decide

/-- 95_test_vectors.md section 2.9, the header tables. -/
theorem test_header : ([0x00#8, 0x01#8, 0x03#8, 0x0F#8, 0x13#8, 0x19#8, 0x1E#8, 0x05#8, 0x06#8, 0x20#8, 0xFC#8] : List Byte).map variantOfCode
      = [.none, .type1, .type1, .type3, .type3, .type5, .type5, .none, .none, .none, .none]
    ∧ ([0x00#8, 0x01#8, 0x02#8, 0x03#8, 0x04#8, 0x05#8, 0x06#8, 0xFF#8] : List Byte).map eramLenOfCode
      = [0, 0x800, 0x2000, 0x8000, 0x20000, 0x10000, 0, 0] := by decide

/-- 95_test_vectors.md section 2.9: a short image has no type byte. -/
theorem test_load : after (fun t => (t.cart, t.ctrl, t.eram.size, t.ie)) (.loadRom [0x11#8]) (st [] 0x8000 (t3 true 2#7 1#4) 0x05#8 0#8)
    = some ([0x11#8], .none, 0, 0x05#8) := by decide

/-- 95_test_vectors.md section 2.11. -/
theorem test_reset :
    after (fun t => (t.cart, t.ctrl, t.ie, t.ifl)) .reset (st [0x11#8] 0x8000 (t3 true 2#7 1#4) 0x05#8 0xFF#8)
      = some ([], .none, 0#8, 0#8)
    ∧ after (fun t => (t.cycTotal, t.synth)) .reset (st [0x11#8] 0x8000 (t3 true 2#7 1#4) 0x05#8 0xFF#8) = some (0, none) := by
  decide

theorem test_attach : after (fun t => (t.synth, t.snap.isSome)) (.attachSynth 7#64) (irq 0#8 0#8) = some (some 7#64, true) := by decide

/-- A step runs the first packet and leaves the others. -/
theorem test_step_port : (match step (presenting [pw 0x01FFFF05#32, pw 0x04000000#32]) with
    | .next t => t.ie == 0x05#8 && t.port == [pw 0x04000000#32]
    | .fault _ => false
    | .refused _ => false) = true := by decide

/-- A reserved word is refused (95_test_vectors.md section 2.7, last sentence). -/
theorem test_step_refuses : (match step (presenting [pw 0x15000005#32]) with
    | .refused r => r == .reservedPacket .reservedSource
    | .fault _ => false
    | .next _ => false) = true := by decide

/-- The pseudo-operation `ROMB5 0x105` (95_test_vectors.md P3 line 2). -/
theorem test_pseudo : (Pseudo.romb5 0x105#9).expand = [.wr 0x2000#16 0x05#8, .wr 0x3000#16 0x01#8]
    ∧ (Pseudo.romb1 0x32#7).expand = [.wr 0x2000#16 0x12#8, .wr 0x4000#16 0x01#8] := by decide

/-- 42_interrupt_ops.md R169, its example: the first call returns 2 and leaves 0x10; with nothing pending, `None`. -/
theorem test_irq_ack :
    (match execIrqAck (irq 0x1F#8 0x14#8) with | .next t => some (t.result, t.ifl) | _ => none)
      = some (.source (some .timer), 0x10#8)
    ∧ (match execIrqAck (irq 0x1F#8 0x00#8) with | .next t => some (t.result, t.ifl) | _ => none)
      = some (.source none, 0x00#8) := by decide

/-- A table word runs as its row's operation from reset: the `IF` row and an `IO` row beside it, with `IF_ADDR` where the
table puts it (30_encoding.md R73). -/
theorem test_table_words_at_table_if_addr :
    step (State.reset.withFetchWord 17 0xFF0F) = exec .rdIf State.reset.atTableIfAddr
    ∧ step (State.reset.withFetchWord 17 0xFF0E) = exec (.rdIo 0xFF0E#16) State.reset.atTableIfAddr := ⟨rfl, rfl⟩

/-- Every other row runs in the state after reset as it is: `RD 0xFF0F`, and the neighbours of the `IO` rows. -/
theorem test_table_words_leave_parameters :
    step (State.reset.withFetchWord 32 0x00FF0F00) = exec (.rd 0xFF0F#16) State.reset
    ∧ step (State.reset.withFetchWord 17 0x1FF10) = exec (.wrApu 0xFF10#16 0#8) State.reset
    ∧ step (State.reset.withFetchWord 17 0xFF80) = exec (.rdHram 0xFF80#16) State.reset
    ∧ step (State.reset.withFetchWord 17 0xFFFF) = exec .rdIe State.reset := ⟨rfl, rfl, rfl, rfl⟩

/-! ### Witnesses: the hypotheses of each obligation can be met -/

/-- DecodeOfEncodeIsTheOperation: well-formed operations at the ends of their ranges. -/
theorem witness_decode_of_encode : Config.ifAddrAllowed ifa = true
    ∧ ([.rdRom0 0x0000#16, .rdRom0 0x3FFF#16, .rdRomx 0x4000#16, .rdRomx 0x7FFF#16, .rdIf, .rdIe, .wrMbc 0x7FFF#16 1#8,
          .wrHram 0xFFFE#16 1#8, .wrIo 0xFF0E#16 1#8, .wrUnmapped 0xFEFF#16 1#8, .noneCtrl 0x7FFF#16 1#8]
        ++ [.t1Mode 0x7FFF#16 1#8, .t5RombLo 0x2FFF#16 1#8, .t5RombHi 0x3000#16 1#8, .rd 0xFFFF#16, .step 0xFFFFFFFFFFFFFFFF#64,
          .loadRom [1#8], .irqClear .joypad, .attachSynth 7#64, .joypadInject 0xFF#8] : List Instr).all
        (fun i => i.wellFormed ifa) = true := by decide

/-- EncodeOfDecodeIsThePacket: a packet of each format that decodes. -/
theorem witness_encode_of_decode : decodesTo (pw 0x16000004#32) (.irqClear .joypad) = true
    ∧ decodesTo (aw 0x1401FF0F#32) (.wrIf 0x14#8) = true ∧ decodesTo (mw 0x01053FFF#32) (.t5RombHi 0x3FFF#16 0x01#8) = true := by
  decide

/-- ReservedWordsAreRefused: one word for each clause, at the ends of the clause's range. -/
theorem witness_reserved_words :
    (presenting [pw 0x05000000#32]).port = pw 0x05000000#32 :: [] ∧ (pw 0x05000000#32).format = .p
    ∧ opField 0x05000000#32 = 0x05#8 ∧ opField 0xFF000000#32 = 0xFF#8 ∧ opField 0x19000000#32 = 0x19#8
    ∧ (opField 0x15000005#32 = 0x15#8 ∧ addrField 0x15000005#32 = 0#16 ∧ dataField 0x15000005#32 = 5#8)
    ∧ (opField 0x13000007#32 = 0x13#8 ∧ addrField 0x13000007#32 = 0#16 ∧ dataField 0x13000007#32 = 7#8)
    ∧ (opField 0x16000008#32 = 0x16#8 ∧ dataField 0x16000008#32 = 8#8)
    ∧ (opField 0x14000100#32 = 0x14#8 ∧ addrField 0x14000100#32 = 1#16)
    ∧ (opField 0x00400001#32 = 0x00#8 ∧ dataField 0x00400001#32 = 1#8)
    ∧ (opField 0x33000100#32 = 0x33#8 ∧ addrField 0x33000100#32 = 1#16)
    ∧ (opField 0x18000100#32 = 0x18#8 ∧ addrField 0x18000100#32 = 1#16)
    ∧ (opField 0x04000001#32 = 0x04#8 ∧ dataField 0x04000001#32 = 1#8) := by decide

/-- StepRunsTheOldestTransaction: a presented packet that decodes; and nothing presented. -/
theorem witness_step_runs : (presenting [pw 0x16000004#32, pw 0x04000000#32]).port = pw 0x16000004#32 :: [pw 0x04000000#32]
    ∧ decode (presenting [pw 0x16000004#32, pw 0x04000000#32]).cfg.ifAddr (pw 0x16000004#32) = .ok (.irqClear .joypad)
    ∧ State.reset.port = [] := ⟨rfl, rfl, rfl⟩

/-- EveryOperationCompletes, its last clause: a step that refuses. -/
theorem witness_refusal : step (presenting [pw 0x15000005#32]) = .refused (.reservedPacket .reservedSource) := rfl

/-- ReadRunsTheSubOperationOfItsRange and WriteRunsTheSubOperationOfItsRange: the ends of every range, and the address
on the other side of each border falls under the next clause. -/
theorem witness_bus_ranges :
    ([0x0000#16, 0x3FFF#16, 0x4000#16, 0x7FFF#16, 0x8000#16, 0x9FFF#16, 0xA000#16, 0xBFFF#16, 0xC000#16, 0xDFFF#16, 0xE000#16,
        0xFDFF#16, 0xFE00#16, 0xFE9F#16, 0xFEA0#16, 0xFEFF#16] : List Addr).map (regionOf start.cfg.ifAddr)
      = [.rom0, .rom0, .romx, .romx, .vram, .vram, .eram, .eram, .wram, .wram, .unmapped, .unmapped, .oam, .oam, .unmapped, .unmapped]
    ∧ ([0xFF00#16, 0xFF0E#16, 0xFF0F#16, 0xFF10#16, 0xFF3F#16, 0xFF40#16, 0xFF7F#16, 0xFF80#16, 0xFFFE#16, 0xFFFF#16] : List Addr).map
        (regionOf start.cfg.ifAddr) = [.io, .io, .ifl, .apu, .apu, .io, .io, .hram, .hram, .ie]
    ∧ 0xFF0F#16 = start.cfg.ifAddr ∧ 0xFF0E#16 ≠ start.cfg.ifAddr ∧ 0xFF40#16 ≠ start.cfg.ifAddr := by decide

/-- ReadOutsideTheCollaboratorsChangesNothing. -/
theorem witness_read_outside : Config.ioOwned start.cfg.ifAddr 0xFF0F#16 = false
    ∧ Config.ioOwned start.cfg.ifAddr 0xFEFF#16 = false ∧ Config.ioOwned start.cfg.ifAddr 0xC000#16 = false
    ∧ ¬ (0xFF10 ≤ (0xFF0F#16).toNat ∧ (0xFF0F#16).toNat ≤ 0xFF3F) := by decide

/-- FixedWindowReadsTheImage: the last byte of an image, and the address behind it. -/
theorem witness_fixed_window : (1#16).toNat < (st [1#8, 2#8] 0 .none 0#8 0#8).cart.length
    ∧ (st [1#8, 2#8] 0 .none 0#8 0#8).cart.length ≤ (2#16).toNat := by decide

/-- SwitchableWindowReadsTheSelectedBank: the last byte of an image of two bytes in bank 0, and beyond it, at both ends of
the window. -/
theorem witness_switchable_window :
    (st [1#8, 2#8] 0 (t5 false 0#9 0#4) 0#8 0#8).romBank * 0x4000 + ((0x4001#16).toNat - 0x4000)
        < (st [1#8, 2#8] 0 (t5 false 0#9 0#4) 0#8 0#8).cart.length
    ∧ (st [1#8, 2#8] 0 (t5 false 0#9 0#4) 0#8 0#8).cart.length
        ≤ (st [1#8, 2#8] 0 (t5 false 0#9 0#4) 0#8 0#8).romBank * 0x4000 + ((0x7FFF#16).toNat - 0x4000)
    ∧ 0x4000 ≤ (0x4001#16).toNat ∧ (0x7FFF#16).toNat ≤ 0x7FFF := by decide

/-- RamWindowReadsGatedAndBounded, its first part, and TranslationsGiveTheWindowOffsets: a controller of each variant. -/
theorem witness_bank_functions : (banked .none).ctrl = .none
    ∧ (banked (t1 true 1#5 3#2 true)).ctrl = .type1 ⟨true, 1#5, 3#2, true⟩
    ∧ (banked (t3 false 1#7 3#4)).ctrl = .type3 ⟨false, 1#7, 3#4⟩
    ∧ (banked (t5 true 1#9 3#4)).ctrl = .type5 ⟨true, 1#9, 3#4⟩ := by decide

/-- RamWindowReadsGatedAndBounded, ExternalRamWriteIsGatedAndBounded: gate closed, beyond the buffer, inside it. -/
theorem witness_ram_window : (banked (t3 false 1#7 0#4)).ctrl.ramEnabled = false
    ∧ (st [] 0 .none 0#8 0#8).eram.size ≤ eramOffset (st [] 0 .none 0#8 0#8).ctrl.ramBank 0xA000#16
    ∧ (banked (t3 true 1#7 4#4)).eram.size ≤ (banked (t3 true 1#7 4#4)).ctrl.ramBank * 0x2000 + ((0xA000#16).toNat - 0xA000)
    ∧ (banked (t3 true 1#7 3#4)).ctrl.ramEnabled = true
    ∧ eramOffset (banked (t3 true 1#7 3#4)).ctrl.ramBank 0xBFFF#16 < (banked (t3 true 1#7 3#4)).eram.size
    ∧ 0xA000 ≤ (0xBFFF#16).toNat ∧ (0xBFFF#16).toNat ≤ 0xBFFF := by decide

/-- OwnedReadsReturnWhatIsStored, WorkRamWriteIsReadBack, HighRamWriteIsReadBack: both ends of both buffers. -/
theorem witness_owned_ram : State.reset.wram.size = 0x2000 ∧ State.reset.hram.size = 0x7F
    ∧ 0xC000 ≤ (0xC000#16).toNat ∧ (0xDFFF#16).toNat ≤ 0xDFFF ∧ 0xFF80 ≤ (0xFF80#16).toNat ∧ (0xFFFE#16).toNat ≤ 0xFFFE := by decide

/-- HolesReadFillAndDropWrites: the ends of the two holes. -/
theorem witness_holes : [0xE000#16, 0xFDFF#16, 0xFEA0#16, 0xFEFF#16].all inHoles = true := by decide

/-- CollaboratorWritesRaiseRequests: each of the three forms. -/
theorem witness_collaborator_writes (v : Byte) :
    (Instr.wrVram 0x8000#16 v = .wrVram 0x8000#16 v ∨ Instr.wrVram 0x8000#16 v = .wrOam 0x8000#16 v
      ∨ Instr.wrVram 0x8000#16 v = .wrIo 0x8000#16 v)
    ∧ (Instr.wrIo 0xFF40#16 v = .wrVram 0xFF40#16 v ∨ Instr.wrIo 0xFF40#16 v = .wrOam 0xFF40#16 v
      ∨ Instr.wrIo 0xFF40#16 v = .wrIo 0xFF40#16 v) := ⟨.inl rfl, .inr (.inr rfl)⟩

/-- SoundWritePublishes: a synth attached, and none. -/
theorem witness_synth : State.synthAttached { start with synth := some 7#64 } = true ∧ State.reset.synthAttached = false := by
  decide

/-- OnlyLoadAndResetChangeTheImage, OnlyLoadAndResetChangeTheVariant, SnapshotChangesOnlyAtPublishPoints,
RequestsAreClearedOnlyOnDemand: an operation other than LOAD_ROM, RESET and STEP that runs. -/
theorem witness_other_operation : ∃ t, exec (.irqClear .timer) (irq 0#8 0x04#8) = .next t
    ∧ (irq 0#8 0x04#8).ifl.getLsbD Source.timer.index = true ∧ t.ifl.getLsbD Source.timer.index = false
    ∧ (∀ image, Instr.irqClear .timer ≠ .loadRom image) ∧ (∀ c, Instr.irqClear .timer ≠ .step c)
    ∧ Instr.irqClear .timer ≠ .reset := by
  refine ⟨_, rfl, ?_, ?_, ?_, ?_, ?_⟩
  · decide
  · decide
  · nofun
  · nofun
  · nofun

/-- EnablesAreChangedOnlyOnDemand: an operation that changes `IE`. -/
theorem witness_enable_changes : ∃ t, exec (.irqEnable .timer) (irq 0#8 0#8) = .next t ∧ t.ie ≠ (irq 0#8 0#8).ie :=
  ⟨_, rfl, by decide⟩

/-- RequestsAreClearedOnlyOnDemand, EnablesAreChangedOnlyOnDemand: an interaction that reads, writes and requests, and
writes neither interrupt byte; `IF` has a bit set. -/
theorem witness_never_writes :
    NeverWrites (start.cfg.ifAddr)
      (.read ⟨0xC000#16, by decide⟩ fun b => .write ⟨0xDFFF#16, by decide⟩ b (.irq .timer (.done ⟨0⟩)) :
        IoProg start.cfg.ifAddr)
    ∧ NeverWrites 0xFFFF#16
      (.read ⟨0xC000#16, by decide⟩ fun b => .write ⟨0xDFFF#16, by decide⟩ b (.irq .timer (.done ⟨0⟩)) :
        IoProg start.cfg.ifAddr)
    ∧ (irq 0#8 0x10#8).ifl.getLsbD Source.joypad.index = true :=
  ⟨fun _ => ⟨by decide, trivial⟩, fun _ => ⟨by decide, trivial⟩, by decide⟩

/-- ControlWriteSelectsByVariantAndAddress, NoneIgnoresControlWrites, ControlWritesWithoutARegister: a state of each
variant, and addresses at the ends of each range. -/
theorem witness_variants : (banked .none).ctrl.variant = .none ∧ (banked (t1 false 1#5 0#2 false)).ctrl.variant = .type1
    ∧ (banked (t3 false 1#7 0#4)).ctrl.variant = .type3 ∧ (banked (t5 false 1#9 0#4)).ctrl.variant = .type5
    ∧ (0x1FFF#16).toNat ≤ 0x1FFF ∧ 0x2000 ≤ (0x2000#16).toNat ∧ (0x2FFF#16).toNat ≤ 0x2FFF ∧ 0x3000 ≤ (0x3000#16).toNat
    ∧ (0x3FFF#16).toNat ≤ 0x3FFF ∧ 0x4000 ≤ (0x4000#16).toNat ∧ (0x5FFF#16).toNat ≤ 0x5FFF ∧ 0x6000 ≤ (0x6000#16).toNat
    ∧ (0x7FFF#16).toNat ≤ 0x7FFF ∧ 0x8000 ≤ (0x8000#16).toNat := by decide

/-- LowNibbleEnablesRam, Type1BankAndModeWrites, Type1SecondaryWrite, Type3BankWrite, RamBankWrites,
Type5HalvesJointlySelectTheBank, CurrentRomBank: a controller of each variant with given registers. -/
theorem witness_registers : (banked (t1 true 1#5 3#2 true)).ctrl = .type1 ⟨true, 1#5, 3#2, true⟩
    ∧ (banked (t3 true 1#7 3#4)).ctrl = .type3 ⟨true, 1#7, 3#4⟩ ∧ (banked (t5 true 0x1FF#9 3#4)).ctrl = .type5 ⟨true, 0x1FF#9, 3#4⟩
    ∧ (banked .none).ctrl = .none ∧ (banked (t1 true 1#5 3#2 true)).cfg.t1HighInMode1 = false := by decide

/-- CurrentRomBank, its second clause with `T1_HIGH_IN_MODE1` = true. -/
theorem witness_t1_high : State.romBank { banked (t1 true 0x1F#5 3#2 true) with
    cfg := { testCfg with t1HighInMode1 := true } } = 0x7F := by decide

/-- RomSpaceWriteIsAControlWrite, ControllerReadAgreesWithTheBus, TranslationsGiveTheWindowOffsets: addresses at the ends of
the clauses' ranges. -/
theorem witness_rom_space : (0x0000#16).toNat ≤ 0x3FFF ∧ (0x3FFF#16).toNat ≤ 0x3FFF ∧ 0x4000 ≤ (0x4000#16).toNat
    ∧ (0x7FFF#16).toNat ≤ 0x7FFF ∧ 0x8000 ≤ (0x8000#16).toNat ∧ 0x8000 ≤ (0xFFFF#16).toNat := by decide

/-- SwitchableWindowNeverShowsBankZero: the least banks the invariant allows. -/
theorem witness_banks_ok : (banked (t1 false 1#5 3#2 false)).ctrl.banksOk = true
    ∧ (banked (t3 false 1#7 0#4)).ctrl.banksOk = true ∧ (banked (t1 false 0#5 3#2 false)).ctrl.banksOk = false := by decide

/-- AnyInterruptIffSomeSourcePends, ResolveNamesTheLowestPendingSource, AcknowledgeClearsTheWinner: a winner, and none. -/
theorem witness_winner : prio (irq 0x14#8 0x14#8).ie (irq 0x14#8 0x14#8).ifl = some .timer
    ∧ prio (irq 0xE0#8 0xFF#8).ie (irq 0xE0#8 0xFF#8).ifl = none := by decide

/-- ChunksAreLossless: the least chunk maximum, and one that does not divide. -/
theorem witness_chunk_max : 1 ≤ 1 ∧ 1 ≤ 0xFFFFFFFF := by decide

/-- StepDeliversEveryCycle, StepAdvancesIoThenAudio, StepZeroOnlyPublishes, SplittingAStepKeepsTheCounters: a state that
keeps accounts, and a split. -/
theorem witness_accounts : AccountsOk { start with cycTotal := 5, ioDelivered := 5, apuDelivered := 5 }
    ∧ (0x100000005#64).toNat = ([0xFFFFFFFF#64, 0x6#64].map BitVec.toNat).sum := by decide

/-- CallbacksAreTransactions: the ends of the ranges a callback may use. -/
theorem witness_callback_addresses : [0x0000#16, 0x7FFF#16, 0xA000#16, 0xFDFF#16, 0xFEA0#16, 0xFF0F#16, 0xFF10#16, 0xFF80#16,
    0xFFFF#16].all (fun a => !Config.ioOwned start.cfg.ifAddr a) = true := by decide

/-- LoadReplacesTheCartridgeState, AfterLoadTheWindowsShowTheImage, DegenerateImagesReadFill: unshared draws, an image with
no type byte, and header bytes inside and outside the tables. -/
theorem witness_header_bytes : DrawsOk start ∧ (List.replicate 0x147 0#8).length ≤ 0x147
    ∧ (List.replicate 0x147 0#8 ++ [0x0F#8, 0#8, 0x05#8])[0x147]? = some 0x0F#8
    ∧ (List.replicate 0x147 0#8 ++ [0x1F#8, 0#8, 0x06#8])[0x147]? = some 0x1F#8
    ∧ (List.replicate 0x147 0#8 ++ [0x0F#8, 0#8, 0x05#8])[0x149]? = some 0x05#8
    ∧ (List.replicate 0x147 0#8 ++ [0x1F#8, 0#8, 0x06#8])[0x149]? = some 0x06#8 :=
  ⟨by decide, Nat.le_of_eq List.length_replicate, rfl, rfl, rfl, rfl⟩

/-- The same statements: the tables at the ends of their ranges, and images shorter than an address. -/
theorem witness_headers : variantOfCode 0x03#8 = .type1 ∧ variantOfCode 0x13#8 = .type3 ∧ variantOfCode 0x1E#8 = .type5
    ∧ deriveVariant [0x11#8] = .none ∧ deriveVariant (List.replicate 0x147 0#8 ++ [0x19#8]) = .type5
    ∧ [0x11#8].length ≤ (1#16).toNat ∧ [0x11#8].length ≤ (0x7FFF#16).toNat := by decide

/-- StepKeepsTheInvariant: a state that meets the invariant and steps on a presented transaction. -/
theorem witness_invariant : Invariant (presenting [pw 0x04000000#32]) ∧ ∃ t, step (presenting [pw 0x04000000#32]) = .next t :=
  ⟨by decide, _, rfl⟩

end Sys2Proof.Tests
end

/-! ## 10_state.md: the image, the variant and the external-RAM length

Only LOAD_ROM and RESET write the three. Their frame is proved once for every other operation (`cartridgeKept_exec`), from
the frames of the bus, of a control write and of STEP; both statements of the family are read off it. -/

namespace Sys2Proof.Machine

/-! ### The variant of a controller -/

@[simp] theorem Controller.initial_variant (x : Variant) : (Controller.initial x).variant = x := by cases x <;> rfl

@[simp] theorem Controller.onType1_variant (f : Type1 → Type1) (c : Controller) : (c.onType1 f).variant = c.variant := by
  cases c <;> rfl

@[simp] theorem Controller.onType3_variant (f : Type3 → Type3) (c : Controller) : (c.onType3 f).variant = c.variant := by
  cases c <;> rfl

@[simp] theorem Controller.onType5_variant (f : Type5 → Type5) (c : Controller) : (c.onType5 f).variant = c.variant := by
  cases c <;> rfl

/-! ### What stays of the cartridge -/

/-- From `s` to `t` the image (10_state.md R12), the variant (R16) and the length of external RAM (R13) are kept. The
registers of the controller and the bytes of external RAM may change. -/
structure CartridgeKept (s t : State) : Prop where
  cart : t.cart = s.cart
  variant : t.ctrl.variant = s.ctrl.variant
  eramSize : t.eram.size = s.eram.size

theorem CartridgeKept.trans {s t u : State} (hst : CartridgeKept s t) (htu : CartridgeKept t u) : CartridgeKept s u :=
  ⟨htu.cart.trans hst.cart, htu.variant.trans hst.variant, htu.eramSize.trans hst.eramSize⟩

theorem OutOfReach.cartridgeKept {s t : State} (h : OutOfReach s t) : CartridgeKept s t := by
  obtain ⟨hcart, hvariant, heram, -⟩ := h
  exact ⟨hcart, hvariant, heram⟩

theorem cartridgeKept_setCtrl {s : State} {c : Controller} (h : c.variant = s.ctrl.variant) :
    CartridgeKept s (s.setCtrl c) :=
  ⟨rfl, h, rfl⟩

theorem cartridgeKept_busRead (s : State) (a : Addr) : CartridgeKept s (busRead s a).2 :=
  (outOfReach_busRead s a).cartridgeKept

theorem cartridgeKept_busWrite (s : State) (a : Addr) (v : Byte) : CartridgeKept s (busWrite s a v) :=
  (outOfReach_busWrite a v (outOfReach_refl s)).cartridgeKept

/-- A control-register write reaches registers only, never the tag (41_bank_controller.md R131). -/
theorem cartridgeKept_mbcWrite (s : State) (a : Addr) (v : Byte) : CartridgeKept s (mbcWrite s a v) :=
  cartridgeKept_setCtrl (Controller.write_variant a v s.ctrl)

theorem cartridgeKept_writeEram (s : State) (a : Addr) (v : Byte) : CartridgeKept s (writeEram s a v) := by
  unfold writeEram
  split
  · exact ⟨rfl, rfl, Memory.write_size _ _ _⟩
  · exact ⟨rfl, rfl, rfl⟩

theorem cartridgeKept_publish (s : State) : CartridgeKept s (publish s) :=
  ⟨publish_cart s, congrArg Controller.variant (publish_ctrl s), congrArg Memory.size (publish_eram s)⟩

theorem cartridgeKept_apuWriteAt (s : State) (a : Addr) (v : Byte) : CartridgeKept s (apuWriteAt s a v) :=
  .trans (t := s.setApus (Config.apuWrite s.apus a v)) ⟨rfl, rfl, rfl⟩ (cartridgeKept_publish _)

/-! ### STEP (43_step_coordinator.md R180) -/

/-- The I/O part of STEP, whatever callbacks its calls issue. -/
theorem cartridgeKept_ioPart (s : State) (n : Nat) : CartridgeKept s (ioPart s n) := by
  obtain ⟨-, hcart, hvariant, heram, -⟩ :=
    ioAdvance_foldl (chunks ((s.ioRem + n) / Config.ioDiv) s.cfg.ioChunkMax.val)
      { s with ioRem := (s.ioRem + n) % Config.ioDiv }
  exact ⟨hcart, hvariant, heram⟩

theorem cartridgeKept_apuPart (s : State) (n : Nat) : CartridgeKept s (apuPart s n) := by
  rw [apuPart, apuAdvance_foldl]
  exact ⟨rfl, rfl, rfl⟩

theorem cartridgeKept_advance (s : State) (n : Nat) : CartridgeKept s (advance s n) :=
  have hcount : CartridgeKept s { s with cycTotal := s.cycTotal + n } := ⟨rfl, rfl, rfl⟩
  ((hcount.trans (cartridgeKept_ioPart _ n)).trans (cartridgeKept_apuPart _ n)).trans (cartridgeKept_publish _)

/-! ### Every operation but LOAD_ROM and RESET -/

theorem cartridgeKept_of_readDone {s t : State} {r : Byte × State} (hr : CartridgeKept s r.2)
    (h : readDone r = .next t) : CartridgeKept s t := by
  obtain rfl := Host.Outcome.next.inj h
  exact hr.trans ⟨rfl, rfl, rfl⟩

theorem cartridgeKept_of_writeDone {s t u : State} (hu : CartridgeKept s u) (h : writeDone u = .next t) :
    CartridgeKept s t := by
  obtain rfl := Host.Outcome.next.inj h
  exact hu.trans ⟨rfl, rfl, rfl⟩

/-- 10_state.md R12, R13, R16: the operations that reach the bus, the controller, external RAM or the collaborators go by
their frames; the last case holds those whose next state has the three fields of `s` as they stand. -/
theorem cartridgeKept_exec {i : Instr} {s t : State} (h : exec i s = .next t) (hload : ∀ image, i ≠ .loadRom image)
    (hreset : i ≠ .reset) : CartridgeKept s t := by
  cases i
  case loadRom image => exact absurd rfl (hload image)
  case reset => exact absurd rfl hreset
  case rd a => exact cartridgeKept_of_readDone (cartridgeKept_busRead s a) h
  case wr a v => exact cartridgeKept_of_writeDone (cartridgeKept_busWrite s a v) h
  case step cycles => exact cartridgeKept_of_writeDone (cartridgeKept_advance s cycles.toNat) h
  case wrMbc a v | mbcWrite a v => exact cartridgeKept_of_writeDone (cartridgeKept_mbcWrite s a v) h
  case wrEram a v => exact cartridgeKept_of_writeDone (cartridgeKept_writeEram s a v) h
  case wrApu a v => exact cartridgeKept_of_writeDone (cartridgeKept_apuWriteAt s a v) h
  case t1Ramen | t1Romb | t1Sec | t1Mode =>
    exact cartridgeKept_of_writeDone (cartridgeKept_setCtrl (Controller.onType1_variant _ _)) h
  case t3Ramen | t3Romb | t3Ramb =>
    exact cartridgeKept_of_writeDone (cartridgeKept_setCtrl (Controller.onType3_variant _ _)) h
  case t5Ramen | t5RombLo | t5RombHi | t5Ramb =>
    exact cartridgeKept_of_writeDone (cartridgeKept_setCtrl (Controller.onType5_variant _ _)) h
  all_goals
    obtain rfl := Host.Outcome.next.inj h
    exact ⟨rfl, rfl, rfl⟩

/-- Settles O22: LOAD_ROM and RESET by their meanings, every other operation by `cartridgeKept_exec`. -/
theorem onlyLoadAndResetChangeTheImage : Obligations.OnlyLoadAndResetChangeTheImage :=
  ⟨fun _ _ => ⟨_, rfl, rfl⟩, fun _ => ⟨_, rfl, rfl⟩,
    fun _ _ _ h hload hreset => (cartridgeKept_exec h hload hreset).cart⟩

/-- Settles O23: LOAD_ROM starts the controller of the derived variant, RESET that of `None`; every other operation by
`cartridgeKept_exec`. -/
theorem onlyLoadAndResetChangeTheVariant : Obligations.OnlyLoadAndResetChangeTheVariant := by
  refine ⟨fun image s => ⟨_, rfl, ?_⟩, fun s => ⟨_, rfl, rfl⟩, fun i s t h hload hreset => ?_⟩
  · exact Controller.initial_variant (deriveVariant image)
  · have hkept := cartridgeKept_exec h hload hreset
    exact ⟨hkept.variant, hkept.eramSize⟩

end Sys2Proof.Machine

/-! ## 40_bus_read_write.md: RD and WR

An address selects its sub-operation through its region (`exec_rd`, `exec_wr`). What each sub-operation answers is said once
for the bus-owned regions (`exec_rdWram` and its siblings). A write into a buffer shows on the bus at its own address alone
(`busByte_eq_of_buffers`, with the offsets one-to-one in the address). -/

namespace Sys2Proof

/-! ### The words of RD and WR -/

/-- A format `P` word made of an operation's code and two fields is decoded from these fields (30_encoding.md R70, R71). -/
theorem decode_wordP (ifAddr : Addr) (o : Op) (a : Addr) (d : Byte) (ext : List (BitVec 64)) (bytes : List Byte) :
    decode ifAddr ⟨.p, wordP o.code a d, ext, bytes⟩ = decodeOp o a d ext bytes := by
  simp [decode, decodeP]

/-! ### The sub-operations of a region (30_encoding.md R72) -/

/-- The read sub-operation of a region. -/
def Region.readInstr (a : Addr) : Region → Instr
  | .rom0 => .rdRom0 a
  | .romx => .rdRomx a
  | .vram => .rdVram a
  | .eram => .rdEram a
  | .wram => .rdWram a
  | .unmapped => .rdUnmapped a
  | .oam => .rdOam a
  | .io => .rdIo a
  | .ifl => .rdIf
  | .apu => .rdApu a
  | .hram => .rdHram a
  | .ie => .rdIe

/-- The write sub-operation of a region. -/
def Region.writeInstr (a : Addr) (v : Byte) : Region → Instr
  | .rom0 => .wrMbc a v
  | .romx => .wrMbc a v
  | .vram => .wrVram a v
  | .eram => .wrEram a v
  | .wram => .wrWram a v
  | .unmapped => .wrUnmapped a v
  | .oam => .wrOam a v
  | .io => .wrIo a v
  | .ifl => .wrIf v
  | .apu => .wrApu a v
  | .hram => .wrHram a v
  | .ie => .wrIe v

theorem readOp_eq_readInstr (ifAddr a : Addr) : readOp ifAddr a = (regionOf ifAddr a).readInstr a := by
  unfold readOp
  cases regionOf ifAddr a <;> rfl

theorem writeOp_eq_writeInstr (ifAddr a : Addr) (v : Byte) :
    writeOp ifAddr a v = (regionOf ifAddr a).writeInstr a v := by
  unfold writeOp
  cases regionOf ifAddr a <;> rfl

/-- `IF_ADDR` lies in the range of `IF` (20_memory.md R42(b)). -/
theorem Region.holds_ifAddr (c : Cfg) : Region.ifl.holds c.ifAddr c.ifAddr :=
  (regionOf_eq_iff _ _ _).mp (regionOf_ifAddr c.ifAddrOk)

end Sys2Proof

namespace Sys2Proof.Machine

/-! ### RD and WR run the sub-operation the address decode gives (40_bus_read_write.md R100, R113) -/

theorem exec_rd_eq_readOp (a : Addr) (s : State) : exec (.rd a) s = exec (readOp s.cfg.ifAddr a) s := by
  rw [readOp_eq_readInstr]
  show readDone (busRead s a) = _
  unfold busRead
  cases regionOf s.cfg.ifAddr a <;> rfl

theorem exec_wr_eq_writeOp (a : Addr) (v : Byte) (s : State) :
    exec (.wr a v) s = exec (writeOp s.cfg.ifAddr a v) s := by
  rw [writeOp_eq_writeInstr]
  show writeDone (busWrite s a v) = _
  unfold busWrite
  cases regionOf s.cfg.ifAddr a <;> rfl

theorem exec_rd {a : Addr} {s : State} (r : Region) (h : r.holds s.cfg.ifAddr a) :
    exec (.rd a) s = exec (r.readInstr a) s := by
  rw [exec_rd_eq_readOp, readOp_eq_readInstr, regionOf_eq_of_holds h]

theorem exec_wr {a : Addr} {s : State} (r : Region) (v : Byte) (h : r.holds s.cfg.ifAddr a) :
    exec (.wr a v) s = exec (r.writeInstr a v) s := by
  rw [exec_wr_eq_writeOp, writeOp_eq_writeInstr, regionOf_eq_of_holds h]

/-- Settles O7: the word by the `op` table, each range by `exec_rd` at its region. -/
theorem readRunsTheSubOperationOfItsRange : Obligations.ReadRunsTheSubOperationOfItsRange := by
  intro a s
  exact ⟨decode_wordP _ .rd a 0#8 [] [], exec_rd .rom0, fun hlo hhi => exec_rd .romx ⟨hlo, hhi⟩,
    fun hlo hhi => exec_rd .vram ⟨hlo, hhi⟩, fun hlo hhi => exec_rd .eram ⟨hlo, hhi⟩,
    fun hlo hhi => exec_rd .wram ⟨hlo, hhi⟩, fun hlo hhi => exec_rd .unmapped (.inl ⟨hlo, hhi⟩),
    fun hlo hhi => exec_rd .oam ⟨hlo, hhi⟩, fun hlo hhi => exec_rd .unmapped (.inr ⟨hlo, hhi⟩),
    fun hif => exec_rd .ifl (hif ▸ Region.holds_ifAddr s.cfg), fun hlo hhi => exec_rd .apu ⟨hlo, hhi⟩,
    fun hne hrange => exec_rd .io ⟨hrange, hne⟩, fun hlo hhi => exec_rd .hram ⟨hlo, hhi⟩, exec_rd .ie,
    _, _, rfl, rfl⟩

/-- Settles O8: the word by the `op` table, each range by `exec_wr` at its region; ROM space is two regions with one
sub-operation. -/
theorem writeRunsTheSubOperationOfItsRange : Obligations.WriteRunsTheSubOperationOfItsRange := by
  intro a v s
  have hrom (hhi : a.toNat ≤ 0x7FFF) : exec (.wr a v) s = exec (.wrMbc a v) s := by
    by_cases hlo : a.toNat ≤ 0x3FFF
    · exact exec_wr .rom0 v hlo
    · exact exec_wr .romx v ⟨by omega, hhi⟩
  exact ⟨decode_wordP _ .wr a v [] [], hrom,
    fun hlo hhi => exec_wr .vram v ⟨hlo, hhi⟩, fun hlo hhi => exec_wr .eram v ⟨hlo, hhi⟩,
    fun hlo hhi => exec_wr .wram v ⟨hlo, hhi⟩, fun hlo hhi => exec_wr .unmapped v (.inl ⟨hlo, hhi⟩),
    fun hlo hhi => exec_wr .oam v ⟨hlo, hhi⟩, fun hlo hhi => exec_wr .unmapped v (.inr ⟨hlo, hhi⟩),
    fun hif => exec_wr .ifl v (hif ▸ Region.holds_ifAddr s.cfg), fun hlo hhi => exec_wr .apu v ⟨hlo, hhi⟩,
    fun hne hrange => exec_wr .io v ⟨hrange, hne⟩, fun hlo hhi => exec_wr .hram v ⟨hlo, hhi⟩, exec_wr .ie v,
    _, rfl, rfl⟩

/-! ### What the reads of the bus-owned regions answer (40_bus_read_write.md R101 to R111) -/

theorem exec_rdRom0 (a : Addr) (s : State) :
    exec (.rdRom0 a) s = .next { s with result := .byte (cartRead s.cart a.toNat) } := rfl

theorem exec_rdRomx {a : Addr} (h : 0x4000 ≤ a.toNat) (s : State) :
    exec (.rdRomx a) s
      = .next { s with result := .byte (cartRead s.cart (s.romBank * 0x4000 + (a.toNat - 0x4000))) } := by
  rw [← romxOffset_eq s.romBank h]
  rfl

theorem exec_rdWram {a : Addr} (h : 0xC000 ≤ a.toNat) (s : State) :
    exec (.rdWram a) s = .next { s with result := .byte (s.wram.read (a.toNat - 0xC000)) } := by
  rw [← wramOffset_eq h]
  rfl

theorem exec_rdHram {a : Addr} (h : 0xFF80 ≤ a.toNat) (s : State) :
    exec (.rdHram a) s = .next { s with result := .byte (s.hram.read (a.toNat - 0xFF80)) } := by
  rw [← hramOffset_eq h]
  rfl

theorem exec_rdEram (a : Addr) (s : State) : exec (.rdEram a) s = .next { s with result := .byte (readEram s a) } := rfl

theorem readEram_of_enabled {s : State} (a : Addr) (h : s.ctrl.ramEnabled = true) :
    readEram s a = s.eram.read (eramOffset s.ctrl.ramBank a) :=
  if_pos h

/-- The gate is closed or the offset is beyond the buffer: the window reads the fill byte (40_bus_read_write.md R104). -/
theorem readEram_of_closed_or_beyond {s : State} {a : Addr}
    (h : s.ctrl.ramEnabled = false ∨ s.eram.size ≤ eramOffset s.ctrl.ramBank a) : readEram s a = Config.fill := by
  unfold readEram
  split
  case isTrue hen =>
    obtain hoff | hbeyond := h
    · exact absurd hen (by simp [hoff])
    · exact Memory.read_beyond s.eram hbeyond
  case isFalse => rfl

/-- Settles O10: the image inside its length, the fill byte beyond it. -/
theorem fixedWindowReadsTheImage : Obligations.FixedWindowReadsTheImage := by
  intro a s
  constructor
  · intro h
    rw [exec_rdRom0, cartRead_lt h]
  · intro h
    rw [exec_rdRom0, cartRead_beyond h]
    rfl

/-- Settles O11: as the fixed window, at the offset of the selected bank. -/
theorem switchableWindowReadsTheSelectedBank : Obligations.SwitchableWindowReadsTheSelectedBank := by
  intro a s hlo _
  constructor
  · intro h
    rw [exec_rdRomx hlo, cartRead_lt h]
  · intro h
    rw [exec_rdRomx hlo, cartRead_beyond h]
    rfl

/-- Settles O12: the enable flag of each variant, then the gated read on both sides of the gate. -/
theorem ramWindowReadsGatedAndBounded : Obligations.RamWindowReadsGatedAndBounded := by
  refine ⟨fun s => ⟨fun h => h ▸ rfl, fun _ h => h ▸ rfl, fun _ h => h ▸ rfl, fun _ h => h ▸ rfl⟩, ?_⟩
  intro a s hlo _
  rw [← eramOffset_eq s.ctrl.ramBank hlo, exec_rdEram]
  constructor
  · intro h
    rw [readEram_of_closed_or_beyond h]
    rfl
  · intro h
    rw [readEram_of_enabled a h]

/-- Settles O13: work RAM and high RAM by their reads, the two bytes as they stand. -/
theorem ownedReadsReturnWhatIsStored : Obligations.OwnedReadsReturnWhatIsStored := by
  intro a s
  exact ⟨fun hlo _ => exec_rdWram hlo s, fun hlo _ => exec_rdHram hlo s, rfl, rfl⟩

/-- Settles O14: each of the four meanings is the collaborator's answer and its new state. -/
theorem collaboratorReadsAreDelegated : Obligations.CollaboratorReadsAreDelegated :=
  fun _ _ => ⟨rfl, rfl, rfl, rfl⟩

/-! ### Writes of the interrupt bytes and of the collaborators' ranges -/

/-- Settles O18: both meanings are one field's update. -/
theorem interruptBytesAreWrittenWhole : Obligations.InterruptBytesAreWrittenWhole :=
  fun _ _ => ⟨rfl, rfl⟩

/-- The mask 0x1F keeps bits 4:0 of a request mask (40_bus_read_write.md R115). -/
theorem getLsbD_orRequests (ifl q : Byte) (k : Nat) :
    (orRequests ifl q).getLsbD k = (ifl.getLsbD k || (decide (k < 5) && q.getLsbD k)) := by
  have hmask : (0x1F#8).getLsbD k = decide (k < 5) := by
    rw [show 0x1F#8 = (BitVec.allOnes 5).setWidth 8 from rfl, BitVec.getLsbD_setWidth, BitVec.getLsbD_allOnes,
      ← Bool.decide_and]
    exact decide_eq_decide.mpr (by omega)
  rw [orRequests, BitVec.getLsbD_or, BitVec.getLsbD_and, hmask, Bool.and_comm (q.getLsbD k)]

/-- Settles O19: the three sub-operations have one meaning, `ioWriteAt`, and its mask is read bit by bit. -/
theorem collaboratorWritesRaiseRequests : Obligations.CollaboratorWritesRaiseRequests := by
  intro a v s i hi
  have hexec : exec i s = writeDone (ioWriteAt s a v) := by
    obtain rfl | rfl | rfl := hi <;> rfl
  exact ⟨_, hexec, rfl, getLsbD_orRequests s.ifl (Config.ioWrite s.ios a v).2⟩

/-- A sound-register write changes `APUS`, and `SNAP` while a synth is attached (40_bus_read_write.md R122). -/
theorem exec_wrApu (a : Addr) (v : Byte) (s : State) :
    exec (.wrApu a v) s = .next { s with
      apus := Config.apuWrite s.apus a v
      snap := if s.synthAttached then some (Config.apuWrite s.apus a v) else s.snap
      result := .nothing } := by
  show writeDone (publish _) = _
  rw [publish_eq]
  rfl

/-- Settles O20: `exec_wrApu` with and without an attached synth. -/
theorem soundWritePublishes : Obligations.SoundWritePublishes := by
  intro a v s
  rw [exec_wrApu]
  constructor
  · intro h
    rw [if_pos h]
  · intro h
    rw [h, if_neg Bool.false_ne_true]

/-! ### Writes into a buffer: read back at their address, invisible at every other -/

/-- A buffer's offset is one-to-one in the address, whatever base is subtracted (log 12). -/
theorem sub_toNat_ne {a b : Addr} (c : Addr) (h : b ≠ a) : (b - c).toNat ≠ (a - c).toNat := by
  intro heq
  exact h (sub_left_injective (BitVec.eq_of_toNat_eq heq))

theorem wramOffset_ne {a b : Addr} (h : b ≠ a) : wramOffset b ≠ wramOffset a := sub_toNat_ne _ h

theorem hramOffset_ne {a b : Addr} (h : b ≠ a) : hramOffset b ≠ hramOffset a := sub_toNat_ne _ h

theorem eramOffset_ne {a b : Addr} (bank : Nat) (h : b ≠ a) : eramOffset bank b ≠ eramOffset bank a := by
  intro heq
  exact sub_toNat_ne _ h (Nat.add_left_cancel heq)

/-- Buffers that hold the same byte behind an address show the same byte on the bus there. -/
theorem busByte_eq_of_buffers {s : State} {b : Addr} {e w m : Memory} (r : Result)
    (he : e.read (eramOffset s.ctrl.ramBank b) = s.eram.read (eramOffset s.ctrl.ramBank b))
    (hw : w.read (wramOffset b) = s.wram.read (wramOffset b))
    (hm : m.read (hramOffset b) = s.hram.read (hramOffset b)) :
    busByte { s with eram := e, wram := w, hram := m, result := r } b = busByte s b := by
  unfold busByte busRead
  cases regionOf s.cfg.ifAddr b
  case eram => simp only [readEram, he]
  case wram => exact hw
  case hram => exact hm
  all_goals rfl

/-- RD in a buffer's range returns the byte the buffer holds behind the address. -/
theorem exec_rd_of_wram {a : Addr} {s : State} {v : Byte} (h : Region.wram.holds s.cfg.ifAddr a)
    (hv : s.wram.read (wramOffset a) = v) : exec (.rd a) s = .next { s with result := .byte v } :=
  hv ▸ exec_rd .wram h

theorem exec_rd_of_hram {a : Addr} {s : State} {v : Byte} (h : Region.hram.holds s.cfg.ifAddr a)
    (hv : s.hram.read (hramOffset a) = v) : exec (.rd a) s = .next { s with result := .byte v } :=
  hv ▸ exec_rd .hram h

theorem exec_rd_of_eram {a : Addr} {s : State} {v : Byte} (h : Region.eram.holds s.cfg.ifAddr a)
    (hen : s.ctrl.ramEnabled = true) (hv : s.eram.read (eramOffset s.ctrl.ramBank a) = v) :
    exec (.rd a) s = .next { s with result := .byte v } := by
  rw [exec_rd .eram h, ← hv, ← readEram_of_enabled a hen]
  rfl

/-- Settles O15: the buffer's read-back and frame at `a - 0xC000`, carried to the bus. -/
theorem workRamWriteIsReadBack : Obligations.WorkRamWriteIsReadBack := by
  intro a v s hlo hhi hsize
  have hoff := wramOffset_eq hlo
  have hin : wramOffset a < s.wram.size := by omega
  have hback := Memory.read_write_same s.wram v hin
  have hframe (j : Nat) (hj : j ≠ wramOffset a) := Memory.read_write_other s.wram v hj
  exact ⟨_, rfl, rfl, hoff ▸ hback, hoff ▸ hframe, exec_rd_of_wram ⟨hlo, hhi⟩ hback, fun b hb =>
    busByte_eq_of_buffers .nothing rfl (hframe _ (wramOffset_ne hb)) rfl⟩

/-- Settles O16: the buffer's read-back and frame at `a - 0xFF80`, carried to the bus. -/
theorem highRamWriteIsReadBack : Obligations.HighRamWriteIsReadBack := by
  intro a v s hlo hhi hsize
  have hoff := hramOffset_eq hlo
  have hin : hramOffset a < s.hram.size := by omega
  have hback := Memory.read_write_same s.hram v hin
  have hframe (j : Nat) (hj : j ≠ hramOffset a) := Memory.read_write_other s.hram v hj
  exact ⟨_, rfl, rfl, hoff ▸ hback, hoff ▸ hframe, exec_rd_of_hram ⟨hlo, hhi⟩ hback, fun b hb =>
    busByte_eq_of_buffers .nothing rfl rfl (hframe _ (hramOffset_ne hb))⟩

theorem writeEram_of_enabled {s : State} (a : Addr) (v : Byte) (h : s.ctrl.ramEnabled = true) :
    writeEram s a v = s.setEram (s.eram.write (eramOffset s.ctrl.ramBank a) v) :=
  if_pos h

/-- The gate is closed or the offset is beyond the buffer: the write is dropped (40_bus_read_write.md R116). -/
theorem writeEram_of_closed_or_beyond {s : State} {a : Addr} (v : Byte)
    (h : s.ctrl.ramEnabled = false ∨ s.eram.size ≤ eramOffset s.ctrl.ramBank a) : writeEram s a v = s := by
  unfold writeEram
  split
  case isTrue hen =>
    obtain hoff | hbeyond := h
    · exact absurd hen (by simp [hoff])
    · rw [Memory.write_beyond s.eram v hbeyond]
      rfl
  case isFalse => rfl

theorem exec_wrEram (a : Addr) (v : Byte) (s : State) :
    exec (.wrEram a v) s = .next { writeEram s a v with result := .nothing } := rfl

/-- Settles O21: dropped where the gate is closed or the offset beyond the buffer; elsewhere the buffer's read-back and
frame, carried to the bus through the same open gate. -/
theorem externalRamWriteIsGatedAndBounded : Obligations.ExternalRamWriteIsGatedAndBounded := by
  intro a v s hlo hhi
  refine ⟨fun h => ?_, fun hen hin => ⟨eramOffset_eq _ hlo, ?_⟩⟩
  · rw [exec_wrEram, writeEram_of_closed_or_beyond v h]
  · have hback := Memory.read_write_same s.eram v hin
    have hframe (j : Nat) (hj : j ≠ eramOffset s.ctrl.ramBank a) := Memory.read_write_other s.eram v hj
    rw [exec_wrEram, writeEram_of_enabled a v hen]
    exact ⟨_, rfl, rfl, Memory.write_size _ _ _, hback, hframe,
      exec_rd_of_eram ⟨hlo, hhi⟩ hen hback, fun b hb =>
      busByte_eq_of_buffers .nothing (hframe _ (eramOffset_ne _ hb)) rfl rfl⟩

/-! ### Writes to ROM space (40_bus_read_write.md R114) -/

/-- Under `None` a control-register write has no effect (41_bank_controller.md R132). -/
theorem Controller.write_of_variant_none (a : Addr) (v : Byte) {c : Controller} (h : c.variant = .none) :
    c.write a v = c := by
  unfold Controller.write
  cases c
  case none => exact ite_self _
  all_goals cases h

/-- Settles O25: WR.MBC and MBC_WRITE have one meaning; the image is kept, so a later read goes by the window's read. -/
theorem romSpaceWriteIsAControlWrite : Obligations.RomSpaceWriteIsAControlWrite := by
  intro a v s hhi
  refine ⟨rfl, _, rfl, rfl, Controller.write_of_variant_none a v, fun hfixed => ?_, fun hlo => ?_⟩
  · exact exec_rd .rom0 hfixed
  · exact (exec_rd .romx ⟨hlo, hhi⟩).trans (exec_rdRomx hlo _)

end Sys2Proof.Machine

/-! ## 41_bank_controller.md: control-register writes

A control-register write runs the sub-operation that the format `M` decode gives its address under the present variant
(`exec_mbcWrite_of_controlOp`). A sub-operation under its own variant applies one register update (`writeDone_onType1`
and its siblings); what the update stores is said as arithmetic on the datum (`toNat_romb7Of` and its siblings). -/

namespace Sys2Proof.Machine

/-! ### What a datum is stored as (30_encoding.md R75) -/

theorem ramenOf_eq_decide (v : Byte) : ramenOf v = decide (v.toNat % 16 = 0xA) := by
  have hnibble : v.setWidth 4 = 0xA#4 ↔ v.toNat % 16 = 0xA := by
    rw [← BitVec.toNat_inj, BitVec.toNat_setWidth]
    rfl
  exact decide_eq_decide.mpr hnibble

theorem toNat_secOf (v : Byte) : (secOf v).toNat = v.toNat % 4 := BitVec.toNat_setWidth 2 v

/-- A bank register that stores 0 as 1 (10_state.md R22), at any width. -/
theorem toNat_zeroAsOne {w : Nat} (hw : 0 < w) (x : BitVec w) :
    (if x = 0#w then 1#w else x).toNat = if x.toNat = 0 then 1 else x.toNat := by
  have hzero : x = 0#w ↔ x.toNat = 0 := by rw [← BitVec.toNat_inj, BitVec.toNat_ofNat, Nat.zero_mod]
  have hone : (1#w).toNat = 1 := by rw [BitVec.toNat_ofNat, Nat.one_mod_two_pow hw]
  simp only [apply_ite BitVec.toNat, hzero, hone]

theorem toNat_romb7Of (v : Byte) : (romb7Of v).toNat = if v.toNat % 128 = 0 then 1 else v.toNat % 128 := by
  rw [romb7Of, toNat_zeroAsOne (by decide), BitVec.toNat_setWidth]

/-- Bit 8 of the old bank over the datum (41_bank_controller.md R142). -/
theorem romb9Low_eq_append (old : BitVec 9) (v : Byte) : romb9Low old v = old.extractLsb' 8 1 ++ v := by
  have hmask : 0x100#9 = BitVec.twoPow 9 8 := rfl
  refine BitVec.eq_of_getLsbD_eq fun i hi => ?_
  rw [romb9Low, hmask, BitVec.getLsbD_append]
  by_cases hlow : i < 8
  · have hne : i ≠ 8 := by omega
    simp [hlow, hne, hi]
  · obtain rfl : i = 8 := by omega
    simp

/-- Bit 0 of the datum over the low byte of the old bank (41_bank_controller.md R143). -/
theorem romb9High_eq_append (old : BitVec 9) (v : Byte) : romb9High old v = v.setWidth 1 ++ old.setWidth 8 := by
  have hmask (i : Nat) (hi : i < 8) : (0x0FF#9).getLsbD i = true := by
    rw [show 0x0FF#9 = (BitVec.allOnes 8).setWidth 9 from rfl, BitVec.getLsbD_setWidth, BitVec.getLsbD_allOnes]
    simp only [hi, decide_true, Bool.and_true, decide_eq_true_eq]
    omega
  refine BitVec.eq_of_getLsbD_eq fun i hi => ?_
  rw [romb9High, BitVec.getLsbD_append, BitVec.getLsbD_or, BitVec.getLsbD_and]
  by_cases hlow : i < 8
  · rw [hmask i hlow]
    simp [hlow]
  · obtain rfl : i = 8 := by omega
    simp

theorem toNat_romb9Low (old : BitVec 9) (v : Byte) : (romb9Low old v).toNat = old.toNat / 256 * 256 + v.toNat := by
  rw [romb9Low_eq_append, append_toNat, BitVec.extractLsb'_toNat, Nat.shiftRight_eq_div_pow]
  omega

theorem toNat_romb9High (old : BitVec 9) (v : Byte) :
    (romb9High old v).toNat = v.toNat % 2 * 256 + old.toNat % 256 := by
  rw [romb9High_eq_append, append_toNat, BitVec.toNat_setWidth, BitVec.toNat_setWidth]
  rfl

/-! ### A sub-operation under its own variant -/

theorem writeDone_onType1 {s : State} {r : Type1} (h : s.ctrl = .type1 r) (f : Type1 → Type1) :
    writeDone (s.setCtrl (s.ctrl.onType1 f)) = .next { s with ctrl := .type1 (f r), result := .nothing } := by
  rw [h]
  rfl

theorem writeDone_onType3 {s : State} {r : Type3} (h : s.ctrl = .type3 r) (f : Type3 → Type3) :
    writeDone (s.setCtrl (s.ctrl.onType3 f)) = .next { s with ctrl := .type3 (f r), result := .nothing } := by
  rw [h]
  rfl

theorem writeDone_onType5 {s : State} {r : Type5} (h : s.ctrl = .type5 r) (f : Type5 → Type5) :
    writeDone (s.setCtrl (s.ctrl.onType5 f)) = .next { s with ctrl := .type5 (f r), result := .nothing } := by
  rw [h]
  rfl

/-- A sub-operation without a register leaves the controller as it stands. -/
theorem writeDone_of_ctrl {s : State} {c : Controller} (h : s.ctrl = c) :
    writeDone s = .next { s with ctrl := c, result := .nothing } := by
  rw [← h]
  rfl

theorem exec_t5RombLo {s : State} {r : Type5} (h : s.ctrl = .type5 r) (a : Addr) (v : Byte) :
    exec (.t5RombLo a v) s = .next { s with ctrl := .type5 (r.rombLo v), result := .nothing } :=
  writeDone_onType5 h (Type5.rombLo v)

theorem exec_t5RombHi {s : State} {r : Type5} (h : s.ctrl = .type5 r) (a : Addr) (v : Byte) :
    exec (.t5RombHi a v) s = .next { s with ctrl := .type5 (r.rombHi v), result := .nothing } :=
  writeDone_onType5 h (Type5.rombHi v)

/-! ### MBC_WRITE (41_bank_controller.md R131) -/

theorem exec_mbcWrite (a : Addr) (v : Byte) (s : State) :
    exec (.mbcWrite a v) s = .next { s with ctrl := s.ctrl.write a v, result := .nothing } := rfl

theorem exec_mbcWrite_of_write_eq {a : Addr} {v : Byte} {s : State} (h : s.ctrl.write a v = s.ctrl) :
    exec (.mbcWrite a v) s = .next { s with result := .nothing } := by
  rw [exec_mbcWrite, h]

theorem Controller.write_of_above (v : Byte) (c : Controller) {a : Addr} (h : 0x8000 ≤ a.toNat) : c.write a v = c :=
  if_neg (by omega)

/-- MBC_WRITE runs the sub-operation of the format `M` decode (30_encoding.md R74), range by range of the variant. Three
sub-operations (NONE.CTRL, T3.LATCH, T5.RSVD) leave the controller as it stands, the others update their registers. -/
theorem exec_mbcWrite_of_controlOp {a : Addr} {v : Byte} {s : State} {i : Instr}
    (h : controlOp s.ctrl.variant a v = some i) : exec (.mbcWrite a v) s = exec i s := by
  unfold controlOp at h
  split at h
  case isFalse => cases h
  case isTrue ha =>
    obtain rfl := Option.some.inj h
    rw [exec_mbcWrite, Controller.write.eq_def, if_pos ha]
    cases hc : s.ctrl with
    | none => exact (writeDone_of_ctrl hc).symm
    | type1 r =>
      simp only [Controller.variant, Type1.control]
      split_ifs <;> exact (writeDone_onType1 hc _).symm
    | type3 r =>
      simp only [Controller.variant, Type3.control]
      split_ifs
      case neg => exact (writeDone_of_ctrl hc).symm
      all_goals exact (writeDone_onType3 hc _).symm
    | type5 r =>
      simp only [Controller.variant, Type5.control]
      split_ifs
      case neg => exact (writeDone_of_ctrl hc).symm
      all_goals exact (writeDone_onType5 hc _).symm

/-- Settles O24: the word by the `op` table; each range of each variant is the format `M` decode's, so it goes by
`exec_mbcWrite_of_controlOp`. -/
theorem controlWriteSelectsByVariantAndAddress : Obligations.ControlWriteSelectsByVariantAndAddress := by
  intro a v s
  obtain ⟨-, hrom, -⟩ := writeRunsTheSubOperationOfItsRange a v s
  refine ⟨decode_wordP _ .mbcWrite a v [] [], hrom,
    fun h => exec_mbcWrite_of_write_eq (Controller.write_of_above v s.ctrl h), fun hv _ => ?_,
    fun hv => ⟨fun _ => ?_, fun _ _ => ?_, fun _ _ => ?_, fun _ _ => ?_⟩,
    fun hv => ⟨fun _ => ?_, fun _ _ => ?_, fun _ _ => ?_, fun _ _ => ?_⟩,
    fun hv => ⟨fun _ => ?_, fun _ _ => ?_, fun _ _ => ?_, fun _ _ => ?_, fun _ _ => ?_⟩,
    _, exec_mbcWrite a v s, rfl⟩
  all_goals exact exec_mbcWrite_of_controlOp (by simp (disch := omega) only [hv, controlOp, if_pos, if_neg])

/-- Settles O32: NONE.CTRL by its meaning, MBC_WRITE because `None` has no register to write. -/
theorem noneIgnoresControlWrites : Obligations.NoneIgnoresControlWrites :=
  fun a v _ => ⟨rfl, fun h => exec_mbcWrite_of_write_eq (Controller.write_of_variant_none a v h)⟩

/-! ### The registers of each variant -/

/-- Settles O26: the three variants store one test of the datum, `ramenOf`. -/
theorem lowNibbleEnablesRam : Obligations.LowNibbleEnablesRam := by
  intro a v s
  rw [← ramenOf_eq_decide v]
  exact ⟨fun _ h => writeDone_onType1 h (Type1.ramen v), fun _ h => writeDone_onType3 h (Type3.ramen v),
    fun _ h => writeDone_onType5 h (Type5.ramen v)⟩

/-- Settles O28: the update stores `secOf`, which does not look at `mode`. -/
theorem type1SecondaryWrite : Obligations.Type1SecondaryWrite :=
  fun _ v _ _ h => ⟨_, secOf v, writeDone_onType1 h (Type1.setSec v), rfl, toNat_secOf v⟩

/-- Settles O29: the update stores `romb7Of`. -/
theorem type3BankWrite : Obligations.Type3BankWrite :=
  fun _ v _ _ h => ⟨_, romb7Of v, writeDone_onType3 h (Type3.romb v), rfl, toNat_romb7Of v⟩

/-! ### The two halves of the Type5 bank (41_bank_controller.md R142, R143) -/

theorem execAll_pair {i j : Instr} {s t u : State} (hi : exec i s = .next t) (hj : exec j t = .next u) :
    execAll [i, j] s = .next u := by
  simp only [execAll, hi, hj]

theorem toNat_romb9High_romb9Low (old : BitVec 9) (lo hi : Byte) :
    (romb9High (romb9Low old lo) hi).toNat = hi.toNat % 2 * 256 + lo.toNat := by
  rw [toNat_romb9High, toNat_romb9Low]
  omega

theorem toNat_romb9Low_romb9High (old : BitVec 9) (lo hi : Byte) :
    (romb9Low (romb9High old hi) lo).toNat = hi.toNat % 2 * 256 + lo.toNat := by
  rw [toNat_romb9Low, toNat_romb9High]
  omega

/-- Settles O31: each write by its update; after both, neither half of the old bank is left. -/
theorem type5HalvesJointlySelectTheBank : Obligations.Type5HalvesJointlySelectTheBank := by
  intro a b lo hi s r h
  exact ⟨⟨_, romb9Low r.romb9 lo, exec_t5RombLo h a lo, rfl, toNat_romb9Low r.romb9 lo⟩,
    ⟨_, romb9High r.romb9 hi, exec_t5RombHi h b hi, rfl, toNat_romb9High r.romb9 hi⟩,
    ⟨_, execAll_pair (exec_t5RombLo h a lo) (exec_t5RombHi (r := r.rombLo lo) rfl b hi),
      toNat_romb9High_romb9Low r.romb9 lo hi⟩,
    ⟨_, execAll_pair (exec_t5RombHi h b hi) (exec_t5RombLo (r := r.rombHi hi) rfl a lo),
      toNat_romb9Low_romb9High r.romb9 lo hi⟩⟩

end Sys2Proof.Machine

/-! ## 42_interrupt_ops.md: the interrupt controller's operations

A named operation writes the mask of one source, so it is read bit by bit (`getLsbD_setSource`, `getLsbD_clearSource`). A
source pends when its bit is set in `IE` and in `IF` (`Pends`): `anyPending` and `prio` are said in these terms
(`anyPending_iff`, `prio_eq_none_iff`, `prio_eq_some_iff`). -/

namespace Sys2Proof

/-! ### The sources and their words (30_encoding.md R77) -/

theorem Source.index_lt (i : Source) : i.index < 5 := by cases i <;> decide

theorem Source.exists_index_eq {k : Nat} (h : k < 5) : ∃ i : Source, i.index = k :=
  match k with
  | 0 => ⟨.vblank, rfl⟩
  | 1 => ⟨.lcdStat, rfl⟩
  | 2 => ⟨.timer, rfl⟩
  | 3 => ⟨.serial, rfl⟩
  | 4 => ⟨.joypad, rfl⟩

/-- A named interrupt operation whose datum is a source's index names that source. -/
theorem sourceOp_sourceByte (i : Source) (f : Source → Instr) : sourceOp true (sourceByte i) [] [] f = .ok (f i) := by
  have hle : i.index ≤ 7 := i.index_lt.le.trans (by decide)
  simp [sourceOp, bareOp, hle]

end Sys2Proof

namespace Sys2Proof.Machine

/-! ### The mask of one source (42_interrupt_ops.md R160 to R163) -/

theorem getLsbD_sourceMask (i : Source) (k : Nat) : (sourceMask i).getLsbD k = decide (k = i.index) := by
  have hlt : i.index < 8 := i.index_lt.trans (by decide)
  rw [sourceMask, ← BitVec.twoPow_eq, BitVec.getLsbD_twoPow, decide_eq_true hlt, Bool.true_and]
  exact decide_eq_decide.mpr eq_comm

theorem getLsbD_setSource (b : Byte) (i : Source) (k : Nat) :
    (setSource b i).getLsbD k = if k = i.index then true else b.getLsbD k := by
  rw [setSource, BitVec.getLsbD_or, getLsbD_sourceMask]
  split <;> simp [*]

theorem getLsbD_clearSource (b : Byte) (i : Source) (k : Nat) :
    (clearSource b i).getLsbD k = if k = i.index then false else b.getLsbD k := by
  rw [clearSource, BitVec.getLsbD_and, BitVec.getLsbD_not, getLsbD_sourceMask]
  split
  case isTrue hk => simp [hk]
  case isFalse hk =>
    have hwidth : b.getLsbD k = true → k < 8 := BitVec.lt_of_getLsbD
    simpa [hk] using hwidth

/-- Settles O38: each word by the `op` table and the source's index, each effect by the bits of the source's mask. -/
theorem namedInterruptOperationsChangeOneBit : Obligations.NamedInterruptOperationsChangeOneBit := by
  intro i s
  have hdecode (o : Op) := decode_wordP s.cfg.ifAddr o 0#16 (sourceByte i) [] []
  exact ⟨(hdecode .irqEnable).trans (sourceOp_sourceByte i _), (hdecode .irqDisable).trans (sourceOp_sourceByte i _),
    (hdecode .irqRequest).trans (sourceOp_sourceByte i _), (hdecode .irqClear).trans (sourceOp_sourceByte i _),
    ⟨_, rfl, rfl, getLsbD_setSource s.ie i⟩, ⟨_, rfl, rfl, getLsbD_clearSource s.ie i⟩,
    ⟨_, rfl, rfl, getLsbD_setSource s.ifl i⟩, ⟨_, rfl, rfl, getLsbD_clearSource s.ifl i⟩⟩

/-! ### The pending sources (60_exceptions.md R225, R226) -/

/-- The source is both enabled and requested. -/
def Pends (ie ifl : Byte) (i : Source) : Prop := ie.getLsbD i.index = true ∧ ifl.getLsbD i.index = true

/-- The mask 0x1F of R225 is that of a request mask (40_bus_read_write.md R115). -/
theorem pending5_eq_orRequests (ie ifl : Byte) : pending5 ie ifl = orRequests 0#8 (ie &&& ifl) := by
  rw [orRequests, BitVec.zero_or, pending5]

theorem getLsbD_pending5 (ie ifl : Byte) (k : Nat) :
    (pending5 ie ifl).getLsbD k = (decide (k < 5) && (ie.getLsbD k && ifl.getLsbD k)) := by
  rw [pending5_eq_orRequests, getLsbD_orRequests, BitVec.getLsbD_zero, Bool.false_or, BitVec.getLsbD_and]

theorem pends_iff_getLsbD_pending5 {ie ifl : Byte} (i : Source) :
    Pends ie ifl i ↔ (pending5 ie ifl).getLsbD i.index = true := by
  simp [Pends, getLsbD_pending5, i.index_lt]

/-- Bits 7:5 take part in no decision: `pending5` is zero as soon as none of the five sources pends. -/
theorem pending5_eq_zero_iff {ie ifl : Byte} : pending5 ie ifl = 0#8 ↔ ∀ i, ¬ Pends ie ifl i := by
  constructor
  · intro h i
    simp [pends_iff_getLsbD_pending5, h]
  · intro h
    refine BitVec.eq_of_getLsbD_eq fun k _ => ?_
    rw [BitVec.getLsbD_zero]
    by_cases hk : k < 5
    · obtain ⟨i, rfl⟩ := Source.exists_index_eq hk
      exact Bool.eq_false_iff.mpr (mt (pends_iff_getLsbD_pending5 i).mpr (h i))
    · simp [getLsbD_pending5, hk]

theorem anyPending_iff {ie ifl : Byte} : anyPending ie ifl = true ↔ ∃ i, Pends ie ifl i := by
  rw [anyPending, bne_iff_ne, Ne, pending5_eq_zero_iff, not_forall_not]

/-- Settles O39: the word by the `op` table, the answer by `anyPending_iff`. -/
theorem anyInterruptIffSomeSourcePends : Obligations.AnyInterruptIffSomeSourcePends :=
  fun s => ⟨decode_wordP s.cfg.ifAddr .irqAny 0#16 0#8 [] [], _, rfl, anyPending_iff⟩

/-! ### The priority encoder (60_exceptions.md R226) -/

theorem prio_eq_none_iff {ie ifl : Byte} : prio ie ifl = none ↔ ∀ i, ¬ Pends ie ifl i := by
  rw [← pending5_eq_zero_iff]
  unfold prio
  split_ifs <;> simp [*]

/-- The source pends and none of a lower index does. -/
def LowestPending (ie ifl : Byte) (i : Source) : Prop :=
  Pends ie ifl i ∧ ∀ j : Source, j.index < i.index → ¬ Pends ie ifl j

theorem exists_lowestPending {ie ifl : Byte} (h : ∃ i, Pends ie ifl i) : ∃ i, LowestPending ie ifl i := by
  obtain ⟨i, hi, hmin⟩ := (measure Source.index).wf.has_min {i | Pends ie ifl i} h
  exact ⟨i, hi, fun j hlt hj => hmin j hj hlt⟩

/-- The encoder tests bits 0 to 3 upward. Bit 4 it need not test, since `pending5` is not zero. -/
theorem prio_of_lowestPending {ie ifl : Byte} {i : Source} (h : LowestPending ie ifl i) : prio ie ifl = some i := by
  obtain ⟨hi, hlow⟩ := h
  have hne : pending5 ie ifl ≠ 0#8 := fun h0 => pending5_eq_zero_iff.mp h0 i hi
  simp only [pends_iff_getLsbD_pending5] at hi hlow
  rw [prio, if_neg hne]
  cases i with
  | vblank => exact if_pos hi
  | lcdStat => exact (if_neg (hlow .vblank (by decide))).trans (if_pos hi)
  | timer =>
    exact (if_neg (hlow .vblank (by decide))).trans <| (if_neg (hlow .lcdStat (by decide))).trans (if_pos hi)
  | serial =>
    exact (if_neg (hlow .vblank (by decide))).trans <| (if_neg (hlow .lcdStat (by decide))).trans <|
      (if_neg (hlow .timer (by decide))).trans (if_pos hi)
  | joypad =>
    exact (if_neg (hlow .vblank (by decide))).trans <| (if_neg (hlow .lcdStat (by decide))).trans <|
      (if_neg (hlow .timer (by decide))).trans (if_neg (hlow .serial (by decide)))

/-- The encoder's answer is the lowest pending source: one exists, and the encoder names it. -/
theorem prio_eq_some_iff {ie ifl : Byte} {i : Source} : prio ie ifl = some i ↔ LowestPending ie ifl i := by
  refine ⟨fun h => ?_, prio_of_lowestPending⟩
  have hsome : ∃ j, Pends ie ifl j := by
    by_contra hnone
    rw [prio_eq_none_iff.mpr (not_exists.mp hnone)] at h
    cases h
  obtain ⟨j, hj⟩ := exists_lowestPending hsome
  obtain rfl : j = i := Option.some.inj ((prio_of_lowestPending hj).symm.trans h)
  exact hj

/-- Settles O40: the word by the `op` table, the answer by the two sides of the priority encoder. -/
theorem resolveNamesTheLowestPendingSource : Obligations.ResolveNamesTheLowestPendingSource := by
  intro s
  have hlowest (i : Source) : prio s.ie s.ifl = some i ↔ LowestPending s.ie s.ifl i := prio_eq_some_iff
  simp only [LowestPending, Pends, and_assoc] at hlowest
  exact ⟨decode_wordP s.cfg.ifAddr .irqResolve 0#16 0#8 [] [], _, rfl, prio_eq_none_iff, hlowest⟩

end Sys2Proof.Machine

/-! ## 44_cartridge_and_passthrough.md: LOAD_ROM and FRAMEBUFFER

LOAD_ROM leaves the block in `State.loaded`. Every variant starts with ROM bank 1 selected (`Controller.romBank_initial`), so
the two ROM windows show the image at the address itself (`exec_rd_loaded`). -/

namespace Sys2Proof.Machine

/-! ### The state after a load (44_cartridge_and_passthrough.md R200 to R203) -/

/-- What LOAD_ROM makes of a state. -/
def State.loaded (image : List Byte) (s : State) : State :=
  { s with
    cart := image
    eram := Memory.fresh (deriveEramLen image) s.draws
    ctrl := Controller.initial (deriveVariant image)
    draws := s.draws + 1
    result := .nothing }

theorem exec_loadRom (image : List Byte) (s : State) : exec (.loadRom image) s = .next (s.loaded image) := rfl

theorem Controller.romBank_initial (high : Bool) (x : Variant) : (Controller.initial x).romBank high = 1 := by
  cases x with
  | none | type3 | type5 => rfl
  | type1 => cases high <;> rfl

theorem State.loaded_romBank (image : List Byte) (s : State) : (s.loaded image).romBank = 1 :=
  Controller.romBank_initial _ _

/-! ### The windows after a load (44_cartridge_and_passthrough.md R203, R204) -/

/-- With bank 1 selected the switchable window continues the fixed one. -/
theorem exec_rd_of_romBank_eq_one {a : Addr} {s : State} (hbank : s.romBank = 1) (ha : a.toNat ≤ 0x7FFF) :
    exec (.rd a) s = .next { s with result := .byte (cartRead s.cart a.toNat) } := by
  by_cases hlo : a.toNat ≤ 0x3FFF
  · exact (exec_rd .rom0 hlo).trans (exec_rdRom0 a s)
  · have hromx : 0x4000 ≤ a.toNat := by omega
    have hoff : s.romBank * 0x4000 + (a.toNat - 0x4000) = a.toNat := by omega
    rw [exec_rd .romx ⟨hromx, ha⟩, Region.readInstr, exec_rdRomx hromx, hoff]

theorem exec_rd_loaded (image : List Byte) (s : State) {a : Addr} (ha : a.toNat ≤ 0x7FFF) :
    exec (.rd a) (s.loaded image) = .next { s.loaded image with result := .byte (cartRead image a.toNat) } :=
  exec_rd_of_romBank_eq_one (s.loaded_romBank image) ha

theorem exec_rd_loaded_beyond {image : List Byte} (s : State) {a : Addr} (hlen : image.length ≤ a.toNat)
    (ha : a.toNat ≤ 0x7FFF) :
    exec (.rd a) (s.loaded image) = .next { s.loaded image with result := .byte Config.fill } := by
  rw [exec_rd_loaded image s ha, cartRead_beyond hlen]

/-- Without external RAM the RAM window reads the fill byte, whether or not the gate is open. -/
theorem exec_rd_of_eram_size_eq_zero {a : Addr} {s : State} (hsize : s.eram.size = 0)
    (ha : Region.eram.holds s.cfg.ifAddr a) : exec (.rd a) s = .next { s with result := .byte Config.fill } := by
  have hbeyond : s.eram.size ≤ eramOffset s.ctrl.ramBank a := by omega
  rw [exec_rd .eram ha, Region.readInstr, exec_rdEram, readEram_of_closed_or_beyond (.inr hbeyond)]

/-! ### The frame (44_cartridge_and_passthrough.md R208) -/

theorem exec_framebuffer (s : State) : exec .framebuffer s = .next { s with result := .bytes (frameBytes s.ios) } := rfl

theorem length_frameBytes (x : IoState) : (frameBytes x).length = 23040 := by
  rw [frameBytes, List.length_map, List.length_range, Config.fbLen]

/-- A byte of the frame is a 2-bit shade. -/
theorem toNat_le_three_of_mem_frameBytes {x : IoState} {b : Byte} (h : b ∈ frameBytes x) : b.toNat ≤ 3 := by
  obtain ⟨k, -, rfl⟩ := List.mem_map.mp h
  have hshade : (Config.ioShade x k).toNat < 4 := (Config.ioShade x k).isLt
  rw [BitVec.toNat_setWidth_of_le (by decide)]
  omega

/-- Settles O54: ROM space by the load's bank 1, the RAM window by the missing external RAM; the empty image is the image
every address is beyond. -/
theorem degenerateImagesReadFill : Obligations.DegenerateImagesReadFill := by
  refine ⟨fun s => ⟨_, exec_loadRom [] s, rfl, rfl, fun a ha => ?_, _, exec_framebuffer _, length_frameBytes _⟩,
    fun image s => ⟨_, exec_loadRom image s, fun a hlen ha => exec_rd_loaded_beyond s hlen ha⟩⟩
  obtain hrom | heram := ha
  · exact exec_rd_loaded_beyond s (Nat.zero_le _) hrom
  · exact exec_rd_of_eram_size_eq_zero rfl heram

/-- Settles O57: the word by the `op` table, the frame by its length and the width of a shade. -/
theorem framebufferIsShades : Obligations.FramebufferIsShades :=
  fun s => ⟨decode_wordP s.cfg.ifAddr .framebuffer 0#16 0#8 [] [], exec_framebuffer s, length_frameBytes s.ios,
    fun _ => toNat_le_three_of_mem_frameBytes⟩

end Sys2Proof.Machine

/-! ## 30_encoding.md: decoding and encoding

Each format is read both ways. What a decode accepts is said once per shape of transaction (`bareOp_eq_ok_iff` and its
siblings) and once per decode (`presents_of_decodeP`, `presents_of_decodeA`, `presents_of_decodeM`); the encoder's packets
are decoded by the region, the control register or the `op` code they were made from. -/

namespace Sys2Proof

/-! ### The ranges of well-formedness (30_encoding.md R72, R74) -/

theorem within_iff {lo hi : Nat} {a : Addr} : within lo hi a = true ↔ lo ≤ a.toNat ∧ a.toNat ≤ hi := decide_eq_true_iff

theorem inHoles_iff {ifAddr a : Addr} : inHoles a = true ↔ Region.unmapped.holds ifAddr a := by
  rw [inHoles, Bool.or_eq_true, within_iff, within_iff]
  rfl

theorem inIo_iff {ifAddr a : Addr} : inIo ifAddr a = true ↔ Region.io.holds ifAddr a := by
  rw [inIo, Bool.and_eq_true, Bool.or_eq_true, within_iff, within_iff, bne_iff_ne]
  rfl

/-! ### Decoding the encoder's packets -/

theorem decode_packetRead {ifAddr a : Addr} (r : Region) (h : r.holds ifAddr a) :
    decode ifAddr (packetRead a) = .ok (r.readInstr a) := by
  rw [← regionOf_eq_of_holds h, ← readOp_eq_readInstr]
  simp [decode, packetRead, decodeA, bareOp]

theorem decode_packetWrite {ifAddr a : Addr} (r : Region) (v : Byte) (h : r.holds ifAddr a) :
    decode ifAddr (packetWrite a v) = .ok (r.writeInstr a v) := by
  rw [← regionOf_eq_of_holds h, ← writeOp_eq_writeInstr]
  simp [decode, packetWrite, decodeA, bareOp]

theorem decode_packetControl (ifAddr : Addr) {t : Variant} {a : Addr} {v : Byte} {i : Instr}
    (h : controlOp t a v = some i) : decode ifAddr (packetControl t a v) = .ok i := by
  simp [decode, packetControl, decodeM, bareOp, h]

/-- ROM space is two regions with one write sub-operation. -/
theorem decode_packetWrite_rom (ifAddr : Addr) {a : Addr} (v : Byte) (h : a.toNat ≤ 0x7FFF) :
    decode ifAddr (packetWrite a v) = .ok (.wrMbc a v) := by
  by_cases hlo : a.toNat ≤ 0x3FFF
  · exact decode_packetWrite .rom0 v hlo
  · exact decode_packetWrite .romx v ⟨by omega, h⟩

theorem imageOp_length {image : List Byte} (h : image.length < 2 ^ 64) :
    imageOp true [BitVec.ofNat 64 image.length] image = .ok (.loadRom image) := by
  simpa [imageOp] using h

/-- Settles O1: format `A` by the region of the address, format `M` by its control register, format `P` by the `op` table
and what follows the word. -/
theorem decodeOfEncodeIsTheOperation : Obligations.DecodeOfEncodeIsTheOperation := by
  intro ifAddr i hif hwf
  have hifl : Region.ifl.holds ifAddr ifAddr := (regionOf_eq_iff _ _ _).mp (regionOf_ifAddr hif)
  cases i
  case rdRom0 a => exact decode_packetRead .rom0 (within_iff.mp hwf).2
  case rdRomx a => exact decode_packetRead .romx (within_iff.mp hwf)
  case rdVram a => exact decode_packetRead .vram (within_iff.mp hwf)
  case rdEram a => exact decode_packetRead .eram (within_iff.mp hwf)
  case rdWram a => exact decode_packetRead .wram (within_iff.mp hwf)
  case rdUnmapped a => exact decode_packetRead .unmapped (inHoles_iff.mp hwf)
  case rdOam a => exact decode_packetRead .oam (within_iff.mp hwf)
  case rdIo a => exact decode_packetRead .io (inIo_iff.mp hwf)
  case rdIf => exact decode_packetRead .ifl hifl
  case rdApu a => exact decode_packetRead .apu (within_iff.mp hwf)
  case rdHram a => exact decode_packetRead .hram (within_iff.mp hwf)
  case rdIe => exact decode_packetRead .ie rfl
  case wrMbc a v => exact decode_packetWrite_rom ifAddr v (within_iff.mp hwf).2
  case wrVram a v => exact decode_packetWrite .vram v (within_iff.mp hwf)
  case wrEram a v => exact decode_packetWrite .eram v (within_iff.mp hwf)
  case wrWram a v => exact decode_packetWrite .wram v (within_iff.mp hwf)
  case wrUnmapped a v => exact decode_packetWrite .unmapped v (inHoles_iff.mp hwf)
  case wrOam a v => exact decode_packetWrite .oam v (within_iff.mp hwf)
  case wrIo a v => exact decode_packetWrite .io v (inIo_iff.mp hwf)
  case wrIf v => exact decode_packetWrite .ifl v hifl
  case wrApu a v => exact decode_packetWrite .apu v (within_iff.mp hwf)
  case wrHram a v => exact decode_packetWrite .hram v (within_iff.mp hwf)
  case wrIe v => exact decode_packetWrite .ie v rfl
  case noneCtrl | t1Ramen | t1Romb | t1Sec | t1Mode | t3Ramen | t3Romb | t3Ramb | t3Latch | t5Ramen | t5RombLo | t5RombHi
      | t5Ramb | t5Rsvd =>
    obtain ⟨hlo, hhi⟩ := within_iff.mp hwf
    exact decode_packetControl ifAddr (by simp (disch := omega) only [controlOp, if_pos, if_neg])
  case irqEnable i | irqDisable i | irqRequest i | irqClear i =>
    exact (decode_wordP _ _ _ _ _ _).trans (sourceOp_sourceByte i _)
  case loadRom image => exact (decode_wordP _ .loadRom _ _ _ _).trans (imageOp_length (decide_eq_true_iff.mp hwf))
  all_goals exact (decode_wordP _ _ _ _ _ _).trans rfl

/-! ### What a shape of transaction accepts (30_encoding.md R79(d), R82) -/

theorem bareOp_eq_ok_iff {ok : Bool} {ext : List (BitVec 64)} {bytes : List Byte} {i j : Instr} :
    bareOp ok ext bytes i = .ok j ↔ ok = true ∧ ext = [] ∧ bytes = [] ∧ i = j := by
  unfold bareOp
  split
  · split <;> simp_all
  · simp_all

theorem numberOp_eq_ok_iff {ok : Bool} {ext : List (BitVec 64)} {bytes : List Byte} {f : BitVec 64 → Instr} {j : Instr} :
    numberOp ok ext bytes f = .ok j ↔ ok = true ∧ ∃ n, ext = [n] ∧ bytes = [] ∧ f n = j := by
  unfold numberOp
  split
  · split <;> simp_all
  · simp_all

theorem imageOp_eq_ok_iff {ok : Bool} {ext : List (BitVec 64)} {bytes : List Byte} {j : Instr} :
    imageOp ok ext bytes = .ok j ↔ ok = true ∧ ∃ n, ext = [n] ∧ n.toNat = bytes.length ∧ .loadRom bytes = j := by
  unfold imageOp
  split
  · split
    · split <;> simp_all
    · simp_all
  · simp_all

theorem sourceOp_eq_ok_iff {ok : Bool} {d : Byte} {ext : List (BitVec 64)} {bytes : List Byte} {f : Source → Instr}
    {j : Instr} :
    sourceOp ok d ext bytes f = .ok j ↔ ok = true ∧ ext = [] ∧ bytes = [] ∧ ∃ i, d = sourceByte i ∧ f i = j := by
  constructor
  · intro h
    unfold sourceOp at h
    split at h
    case isFalse => cases h
    case isTrue hok =>
      obtain ⟨haddr, -⟩ := Bool.and_eq_true_iff.mp hok
      split at h
      case h_2 => cases h
      case h_1 i hi =>
        obtain ⟨-, hext, hbytes, hj⟩ := bareOp_eq_ok_iff.mp h
        have hd : d.toNat = (sourceByte i).toNat := by rw [sourceByte_toNat, Source.index_of_ofIndex hi]
        exact ⟨haddr, hext, hbytes, i, BitVec.eq_of_toNat_eq hd, hj⟩
  · rintro ⟨rfl, rfl, rfl, i, rfl, rfl⟩
    exact sourceOp_sourceByte i f

/-! ### What a decode accepts -/

/-- The packet is the encoding of the well-formed operation. -/
def Presents (ifAddr : Addr) (p : Packet) (i : Instr) : Prop := i.wellFormed ifAddr = true ∧ encode ifAddr i = p

/-- The fields an operation does not use are 0, so that no bit of the word is dropped. -/
theorem presents_of_decodeOp (ifAddr : Addr) {o : Op} {a : Addr} {d : Byte} {ext : List (BitVec 64)} {bytes : List Byte}
    {i : Instr} (h : decodeOp o a d ext bytes = .ok i) : Presents ifAddr ⟨.p, wordP o.code a d, ext, bytes⟩ i := by
  cases o
  case step | attachSynth =>
    obtain ⟨hok, n, rfl, rfl, rfl⟩ := numberOp_eq_ok_iff.mp h
    obtain ⟨rfl, rfl⟩ : a = 0 ∧ d = 0 := by simpa using hok
    exact ⟨rfl, rfl⟩
  case loadRom =>
    obtain ⟨hok, n, rfl, hn, rfl⟩ := imageOp_eq_ok_iff.mp h
    obtain ⟨rfl, rfl⟩ : a = 0 ∧ d = 0 := by simpa using hok
    refine ⟨decide_eq_true (hn ▸ n.isLt), ?_⟩
    rw [encode, ← hn, BitVec.ofNat_toNat, BitVec.setWidth_eq]
    rfl
  case irqEnable | irqDisable | irqRequest | irqClear =>
    obtain ⟨hok, rfl, rfl, i, rfl, rfl⟩ := sourceOp_eq_ok_iff.mp h
    obtain rfl : a = 0 := by simpa using hok
    exact ⟨rfl, rfl⟩
  case wr | mbcWrite =>
    obtain ⟨-, rfl, rfl, rfl⟩ := bareOp_eq_ok_iff.mp h
    exact ⟨rfl, rfl⟩
  case rd | xlatRom | xlatRam | mbcRead =>
    obtain ⟨hok, rfl, rfl, rfl⟩ := bareOp_eq_ok_iff.mp h
    obtain rfl : d = 0 := by simpa using hok
    exact ⟨rfl, rfl⟩
  case setIfRaw | joypadInject =>
    obtain ⟨hok, rfl, rfl, rfl⟩ := bareOp_eq_ok_iff.mp h
    obtain rfl : a = 0 := by simpa using hok
    exact ⟨rfl, rfl⟩
  all_goals
    obtain ⟨hok, rfl, rfl, rfl⟩ := bareOp_eq_ok_iff.mp h
    obtain ⟨rfl, rfl⟩ : a = 0 ∧ d = 0 := by simpa using hok
    exact ⟨rfl, rfl⟩

theorem presents_of_decodeP (ifAddr : Addr) {w : BitVec 32} {ext : List (BitVec 64)} {bytes : List Byte} {i : Instr}
    (h : decodeP w ext bytes = .ok i) : Presents ifAddr ⟨.p, w, ext, bytes⟩ i := by
  unfold decodeP at h
  split at h
  case h_1 o ho =>
    rw [← wordP_fields w, ← Op.code_of_ofCode ho]
    exact presents_of_decodeOp ifAddr h
  case h_2 => cases h

/-- A read of a region is well-formed in the region's range and is encoded as the address. -/
theorem presents_readInstr {ifAddr a : Addr} {r : Region} (h : r.holds ifAddr a) :
    Presents ifAddr (packetRead a) (r.readInstr a) := by
  cases r
  case rom0 => exact ⟨within_iff.mpr ⟨Nat.zero_le _, h⟩, rfl⟩
  case unmapped => exact ⟨inHoles_iff.mpr h, rfl⟩
  case io => exact ⟨inIo_iff.mpr h, rfl⟩
  case ifl =>
    obtain ⟨-, rfl⟩ := h
    exact ⟨rfl, rfl⟩
  case ie =>
    obtain rfl : a = 0xFFFF#16 := BitVec.eq_of_toNat_eq h
    exact ⟨rfl, rfl⟩
  all_goals exact ⟨within_iff.mpr h, rfl⟩

theorem presents_writeInstr {ifAddr a : Addr} {r : Region} (v : Byte) (h : r.holds ifAddr a) :
    Presents ifAddr (packetWrite a v) (r.writeInstr a v) := by
  cases r
  case rom0 => exact ⟨within_iff.mpr ⟨Nat.zero_le _, Nat.le_trans h (by decide)⟩, rfl⟩
  case romx => exact ⟨within_iff.mpr ⟨Nat.zero_le _, h.2⟩, rfl⟩
  case unmapped => exact ⟨inHoles_iff.mpr h, rfl⟩
  case io => exact ⟨inIo_iff.mpr h, rfl⟩
  case ifl =>
    obtain ⟨-, rfl⟩ := h
    exact ⟨rfl, rfl⟩
  case ie =>
    obtain rfl : a = 0xFFFF#16 := BitVec.eq_of_toNat_eq h
    exact ⟨rfl, rfl⟩
  all_goals exact ⟨within_iff.mpr h, rfl⟩

theorem presents_of_decodeA {ifAddr : Addr} {w : BitVec 32} {ext : List (BitVec 64)} {bytes : List Byte} {i : Instr}
    (h : decodeA ifAddr w ext bytes = .ok i) : Presents ifAddr ⟨.a, w, ext, bytes⟩ i := by
  have hholds := regionOf_holds ifAddr (keyAddr w)
  unfold decodeA at h
  split_ifs at h with hread hwrite
  · obtain ⟨hok, rfl, rfl, rfl⟩ := bareOp_eq_ok_iff.mp h
    rw [readOp_eq_readInstr, ← wordKey_fields w, hread, eq_of_beq hok, keyAddr_wordKey]
    exact presents_readInstr hholds
  · obtain ⟨-, rfl, rfl, rfl⟩ := bareOp_eq_ok_iff.mp h
    have hw : packetWrite (keyAddr w) (opField w) = ⟨.a, w, [], []⟩ := by
      rw [packetWrite, ← hwrite, wordKey_fields]
    rw [writeOp_eq_writeInstr, ← hw]
    exact presents_writeInstr (opField w) hholds

/-- Each control register's range is the one its operation is well-formed in. -/
theorem presents_of_controlOp (ifAddr : Addr) {t : Variant} {a : Addr} {v : Byte} {i : Instr}
    (h : controlOp t a v = some i) : Presents ifAddr (packetControl t a v) i := by
  unfold controlOp at h
  split at h
  case isFalse => cases h
  case isTrue ha =>
    obtain rfl := Option.some.inj h
    cases t
    case none => exact ⟨within_iff.mpr ⟨Nat.zero_le _, ha⟩, rfl⟩
    all_goals
      dsimp only
      split_ifs <;> exact ⟨within_iff.mpr (by omega), rfl⟩

theorem presents_of_decodeM (ifAddr : Addr) {w : BitVec 32} {ext : List (BitVec 64)} {bytes : List Byte} {i : Instr}
    (h : decodeM w ext bytes = .ok i) : Presents ifAddr ⟨.m, w, ext, bytes⟩ i := by
  unfold decodeM at h
  split_ifs at h with hhigh
  split at h
  case h_2 => cases h
  case h_1 t ht =>
    split at h
    case h_2 => cases h
    case h_1 j hj =>
      obtain ⟨-, rfl, rfl, rfl⟩ := bareOp_eq_ok_iff.mp h
      have hw : packetControl t (keyAddr w) (opField w) = ⟨.m, w, [], []⟩ := by
        rw [packetControl, Variant.tag_of_ofTag ht, ← hhigh, wordKey_fields]
      rw [← hw]
      exact presents_of_controlOp ifAddr hj

/-- Settles O2: each format by what its decode accepts. -/
theorem encodeOfDecodeIsThePacket : Obligations.EncodeOfDecodeIsThePacket := by
  rintro ifAddr ⟨f, w, ext, bytes⟩ i h
  cases f with
  | a => exact presents_of_decodeA h
  | m => exact presents_of_decodeM ifAddr h
  | p => exact presents_of_decodeP ifAddr h

/-- Settles O3: each word is the one its fields assemble. -/
theorem exampleWordsDecode : Obligations.ExampleWordsDecode :=
  fun _ => ⟨rfl, rfl, rfl, rfl, rfl, rfl, rfl, rfl, rfl⟩

/-! ### The words the port refuses (30_encoding.md R79(d), decision D35) -/

/-- A code outside the table names no operation. -/
theorem Op.ofCode_eq_none {c : BitVec 8} (h : c ∉ Op.all.map Op.code) : Op.ofCode c = none := by
  refine List.find?_eq_none.mpr fun o ho hc => h ?_
  rw [← eq_of_beq hc]
  exact List.mem_map_of_mem ho

theorem sourceOp_unusedField {ok : Bool} {d : Byte} (ext : List (BitVec 64)) (bytes : List Byte) (f : Source → Instr)
    (h : ok = false ∨ 8 ≤ d.toNat) : sourceOp ok d ext bytes f = .error .unusedField := by
  refine if_neg fun hok => ?_
  obtain ⟨hok, hd⟩ := Bool.and_eq_true_iff.mp hok
  have hd := of_decide_eq_true hd
  obtain rfl | h := h
  · cases hok
  · omega

/-- The sources end at index 4 (30_encoding.md R77). -/
theorem Source.ofIndex_eq_none {n : Nat} (h : 5 ≤ n) : Source.ofIndex n = none := by
  cases hn : Source.ofIndex n with
  | none => rfl
  | some i =>
    have hi := Source.index_of_ofIndex hn
    have hlt := i.index_lt
    omega

theorem sourceOp_reservedSource {d : Byte} (ext : List (BitVec 64)) (bytes : List Byte) (f : Source → Instr)
    (hlo : 5 ≤ d.toNat) (hhi : d.toNat ≤ 7) : sourceOp true d ext bytes f = .error .reservedSource := by
  rw [sourceOp, if_pos (by simpa using hhi), Source.ofIndex_eq_none hlo]

end Sys2Proof

namespace Sys2Proof.Machine

/-- A step meets a format `P` word whose operation rejects its fields. -/
theorem step_refuses_of_decodeOp {s : State} {p : Packet} {rest : List Packet} {o : Op} {e : DecodeError}
    (hport : s.port = p :: rest) (hformat : p.format = .p) (hcode : o.code = opField p.word)
    (hop : decodeOp o (addrField p.word) (dataField p.word) p.ext p.bytes = .error e) :
    step s = .refused (.reservedPacket e) := by
  refine step_refuses hport ?_
  simp only [decode, hformat, decodeP, ← hcode, Op.ofCode_code, hop]

/-- Settles O4: a code outside the table is no operation's; in every other clause the code is that of a listed operation,
whose shape names the rejection. -/
theorem reservedWordsAreRefused : Obligations.ReservedWordsAreRefused := by
  intro s p rest hport hformat
  have hlisted {ops : List Op} {e : DecodeError} (hmem : opField p.word ∈ ops.map Op.code)
      (hops : ∀ o ∈ ops, decodeOp o (addrField p.word) (dataField p.word) p.ext p.bytes = .error e) :
      step s = .refused (.reservedPacket e) := by
    obtain ⟨o, ho, hcode⟩ := List.mem_map.mp hmem
    exact step_refuses_of_decodeOp hport hformat hcode (hops o ho)
  refine ⟨fun hcode => step_refuses hport ?_, fun hcode haddr hlo hhi => ?_, fun hcode hfields => ?_,
    fun hcode hdata => ?_, fun hcode haddr => ?_, fun hcode hfields => ?_⟩
  · simp only [decode, hformat, decodeP, Op.ofCode_eq_none hcode]
  · refine hlisted (ops := [.irqEnable, .irqDisable, .irqRequest, .irqClear]) hcode ?_
    simp [decodeOp, haddr, sourceOp_reservedSource _ _ _ hlo hhi]
  · have hbad : (addrField p.word == 0#16) = false ∨ 8 ≤ (dataField p.word).toNat := hfields.imp_left beq_false_of_ne
    refine hlisted (ops := [.irqEnable, .irqDisable, .irqRequest, .irqClear]) hcode ?_
    simp [decodeOp, sourceOp_unusedField _ _ _ hbad]
  · refine hlisted (ops := [.rd, .xlatRom, .xlatRam, .mbcRead]) hcode ?_
    simp [decodeOp, bareOp, hdata]
  · refine hlisted (ops := [.setIfRaw, .joypadInject]) hcode ?_
    simp [decodeOp, bareOp, haddr]
  · have hbad : (addrField p.word == 0#16 && dataField p.word == 0#8) = false := by
      rw [Bool.and_eq_false_iff]
      exact hfields.imp beq_false_of_ne beq_false_of_ne
    refine hlisted (ops := [.step, .loadRom, .reset, .getIeRaw, .getIfRaw, .irqAny, .irqResolve, .curRomBank, .attachSynth,
      .framebuffer, .isDmaActive]) hcode ?_
    simp [decodeOp, bareOp, numberOp, imageOp, hbad]

end Sys2Proof.Machine

/-! ## 43_step_coordinator.md: STEP

The chunks of a STEP are said in closed form (`chunksLoop_eq`). The effect of STEP is split: what it does to the counters
and leaves alone (`outOfReach_advance`), and, once the remainders are 0, which calls are made in which order
(`exec_step_eq`). -/

namespace Sys2Proof.Machine

/-! ### The loop of chunks (43_step_coordinator.md R181) -/

theorem chunksLoop_zero (k m : Nat) : chunksLoop k 0 m = [] := by cases k <;> rfl

theorem chunksLoop_succ {k rem : Nat} (m : Nat) (h : rem ≠ 0) :
    chunksLoop (k + 1) rem m = min rem m :: chunksLoop k (rem - min rem m) m :=
  if_neg h

/-- Given enough turns: full chunks, then what is left. -/
theorem chunksLoop_eq {m : Nat} (hm : 1 ≤ m) (k rem : Nat) (h : rem ≤ k) :
    chunksLoop k rem m = List.replicate (rem / m) m ++ (if rem % m = 0 then [] else [rem % m]) := by
  induction k generalizing rem with
  | zero =>
    obtain rfl : rem = 0 := by omega
    simp [chunksLoop_zero]
  | succ k ih =>
    by_cases h0 : rem = 0
    · subst h0
      simp [chunksLoop_zero]
    · rw [chunksLoop_succ m h0]
      by_cases hlt : rem < m
      · simp [Nat.min_eq_left hlt.le, chunksLoop_zero, Nat.div_eq_of_lt hlt, Nat.mod_eq_of_lt hlt, h0]
      · have hle : m ≤ rem := by omega
        rw [Nat.min_eq_right hle, ih (rem - m) (by omega), Nat.div_eq_sub_div hm hle, Nat.mod_eq_sub_mod hle,
          List.replicate_succ, List.cons_append]

theorem chunks_of_le_max {n m : Nat} (hlo : 1 ≤ n) (hhi : n ≤ m) : chunks n m = [n] := by
  obtain ⟨k, rfl⟩ := Nat.exists_eq_add_of_le' hlo
  rw [chunks, chunksLoop_succ m (by omega), Nat.min_eq_left hhi, Nat.sub_self, chunksLoop_zero]

/-- Settles O45: sum and bounds turn by turn, the closed form by induction; a single chunk is the whole count. -/
theorem chunksAreLossless : Obligations.ChunksAreLossless := by
  intro n m hm
  have hsum : (chunks n m).sum = n := chunksLoop_sum hm n n (Nat.le_refl n)
  have hbounds : ∀ c ∈ chunks n m, 1 ≤ c ∧ c ≤ m := chunksLoop_bounds hm n n
  refine ⟨hsum, hbounds, chunksLoop_eq hm n n (Nat.le_refl n), ⟨fun h => ?_, fun h => ?_⟩, ⟨fun h => ?_, fun h => ?_⟩⟩
  · rw [← hsum, h, List.sum_nil]
  · subst h
    rfl
  · obtain ⟨c, hc⟩ := List.length_eq_one_iff.mp h
    obtain rfl : c = n := by rw [← hsum, hc, List.sum_singleton]
    exact hbounds c (hc ▸ List.mem_singleton_self c)
  · rw [chunks_of_le_max h.1 h.2, List.length_singleton]

/-! ### What STEP counts and leaves alone (43_step_coordinator.md R180, R184) -/

/-- The counters and remainders STEP leaves, everything else as it stands. -/
def State.counted (s : State) (n : Nat) : State :=
  { s with
    cycTotal := s.cycTotal + n
    ioDelivered := s.ioDelivered + (s.ioRem + n) / Config.ioDiv
    ioRem := (s.ioRem + n) % Config.ioDiv
    apuDelivered := s.apuDelivered + (s.apuRem + n) / Config.apuDiv
    apuRem := (s.apuRem + n) % Config.apuDiv }

/-- Whatever the callbacks of its `io_step` calls do, STEP counts and leaves alone what they cannot reach. -/
theorem outOfReach_advance (s : State) (n : Nat) : OutOfReach (s.counted n) (advance s n) := by
  obtain ⟨hio, hcart, hvariant, heram, hsynth, hioRem, hapuRem, hcyc, -, hapu, hcfg, hport, hdraws, hresult⟩ :=
    ioAdvance_foldl (chunks ((s.ioRem + n) / Config.ioDiv) s.cfg.ioChunkMax.val)
      { s with cycTotal := s.cycTotal + n, ioRem := (s.ioRem + n) % Config.ioDiv }
  rw [chunks_sum_max] at hio
  simp only [OutOfReach, advance, apuPart, apuAdvance_foldl, chunks_sum_max, publish_cart, publish_ctrl, publish_eram,
    publish_synth, publish_ioRem, publish_apuRem, publish_cycTotal, publish_ioDelivered, publish_apuDelivered, publish_cfg,
    publish_port, publish_draws, publish_result]
  simp only [ioPart] at hapuRem ⊢
  rw [hapuRem]
  exact ⟨hcart, hvariant, heram, hsynth, hioRem, rfl, hcyc, hio, congrArg (· + _) hapu, hcfg, hport, hdraws, hresult⟩

/-- With dividers of 1 (decision D23) no remainder is left and each collaborator has had every cycle. -/
theorem accountsOk_iff {s : State} :
    AccountsOk s ↔ s.ioRem = 0 ∧ s.apuRem = 0 ∧ s.ioDelivered = s.cycTotal ∧ s.apuDelivered = s.cycTotal := by
  simp only [AccountsOk, Config.ioDiv, Config.apuDiv]
  omega

/-- Where the accounts are kept, STEP counts its cycles three times and keeps the accounts. -/
theorem State.counted_eq {s : State} (h : AccountsOk s) (n : Nat) :
    s.counted n = { s with
      cycTotal := s.cycTotal + n, ioDelivered := s.ioDelivered + n, apuDelivered := s.apuDelivered + n } := by
  obtain ⟨hio, hapu, -⟩ := accountsOk_iff.mp h
  simp only [State.counted, Config.ioDiv, Config.apuDiv, Nat.div_one, Nat.mod_one, hio, hapu, Nat.zero_add]

theorem accountsOk_of_outOfReach {s t : State} (hst : OutOfReach s t) (h : AccountsOk s) : AccountsOk t := by
  obtain ⟨-, -, -, -, hioRem, hapuRem, hcyc, hio, hapu, -⟩ := hst
  simpa only [AccountsOk, hioRem, hapuRem, hcyc, hio, hapu] using h

theorem accountsOk_counted {s : State} (h : AccountsOk s) (n : Nat) : AccountsOk (s.counted n) := by
  rw [State.counted_eq h]
  rw [accountsOk_iff] at h ⊢
  dsimp only
  omega

theorem exec_step (c : Cycles) (s : State) : exec (.step c) s = .next ((advance s c.toNat).answer .nothing) := rfl

/-- Settles O46: the counted state's fields, and what is out of the callbacks' reach. -/
theorem stepDeliversEveryCycle : Obligations.StepDeliversEveryCycle := by
  intro c s h
  have hreach := outOfReach_advance s c.toNat
  have haccounts := accountsOk_of_outOfReach hreach (accountsOk_counted h c.toNat)
  obtain ⟨hioRem, hapuRem, -⟩ := accountsOk_iff.mp haccounts
  rw [State.counted_eq h] at hreach
  obtain ⟨hcart, hvariant, heram, hsynth, -, -, hcyc, hio, hapu, hcfg, hport, hdraws, -⟩ := hreach
  exact ⟨_, exec_step c s, hcyc, hio, hapu, hioRem, hapuRem, haccounts, hcart, hvariant, heram, hsynth, hcfg, hport,
    hdraws, rfl⟩

/-! ### Losslessness over a sequence of STEPs -/

/-- From `s` to `t` the block was stepped by `n` cycles, as far as counters and remainders tell. -/
structure Stepped (s t : State) (n : Nat) : Prop where
  accounts : AccountsOk t
  cycTotal : t.cycTotal = s.cycTotal + n
  ioDelivered : t.ioDelivered = s.ioDelivered + n
  apuDelivered : t.apuDelivered = s.apuDelivered + n

theorem exec_step_stepped {s : State} (h : AccountsOk s) (c : Cycles) :
    ∃ t, exec (.step c) s = .next t ∧ Stepped s t c.toNat := by
  obtain ⟨t, ht, hcyc, hio, hapu, -, -, haccounts, -⟩ := stepDeliversEveryCycle c s h
  exact ⟨t, ht, haccounts, hcyc, hio, hapu⟩

theorem Stepped.trans {s t u : State} {n m : Nat} (hst : Stepped s t n) (htu : Stepped t u m) : Stepped s u (n + m) where
  accounts := htu.accounts
  cycTotal := by rw [htu.cycTotal, hst.cycTotal, Nat.add_assoc]
  ioDelivered := by rw [htu.ioDelivered, hst.ioDelivered, Nat.add_assoc]
  apuDelivered := by rw [htu.apuDelivered, hst.apuDelivered, Nat.add_assoc]

theorem execAll_cons_of_next {i : Instr} {s t : State} (is : List Instr) (h : exec i s = .next t) :
    execAll (i :: is) s = execAll is t := by
  simp only [execAll, h]

theorem execAll_steps_stepped (parts : List Cycles) {s : State} (h : AccountsOk s) :
    ∃ u, execAll (parts.map .step) s = .next u ∧ Stepped s u (parts.map BitVec.toNat).sum := by
  induction parts generalizing s with
  | nil => exact ⟨s, rfl, h, rfl, rfl, rfl⟩
  | cons c parts ih =>
    obtain ⟨t, ht, hst⟩ := exec_step_stepped h c
    obtain ⟨u, hu, htu⟩ := ih hst.accounts
    exact ⟨u, (execAll_cons_of_next _ ht).trans hu, hst.trans htu⟩

/-- Settles O49: both runs step the block by the same number of cycles. -/
theorem splittingAStepKeepsTheCounters : Obligations.SplittingAStepKeepsTheCounters := by
  intro n parts s h hsum
  obtain ⟨t, ht, hst⟩ := exec_step_stepped h n
  obtain ⟨u, hu, hsu⟩ := execAll_steps_stepped parts h
  rw [← hsum] at hsu
  obtain ⟨htio, htapu, -⟩ := accountsOk_iff.mp hst.accounts
  obtain ⟨huio, huapu, -⟩ := accountsOk_iff.mp hsu.accounts
  exact ⟨t, u, ht, hu, hst.cycTotal.trans hsu.cycTotal.symm, hst.ioDelivered.trans hsu.ioDelivered.symm,
    hst.apuDelivered.trans hsu.apuDelivered.symm, htio.trans huio.symm, htapu.trans huapu.symm⟩

/-! ### The calls of a STEP, in order (43_step_coordinator.md R180, R185; decision D22) -/

theorem ioPart_eq {s : State} (h : s.ioRem = 0) (n : Nat) :
    ioPart s n = (chunks n s.cfg.ioChunkMax.val).foldl ioAdvance s := by
  simp only [ioPart, h, Config.ioDiv, Nat.zero_add, Nat.div_one, Nat.mod_one]
  rw [← h]

theorem apuPart_eq {s : State} (h : s.apuRem = 0) (n : Nat) :
    apuPart s n = { s with
      apus := (chunks n s.cfg.apuChunkMax.val).foldl Config.apuStep s.apus, apuDelivered := s.apuDelivered + n } := by
  simp only [apuPart, apuAdvance_foldl, h, Config.apuDiv, Nat.zero_add, Nat.div_one, Nat.mod_one, chunks_sum_max]

/-- The state between the two parts of a STEP: every I/O chunk applied, each with its callbacks. -/
def afterIo (s : State) (n : Nat) : State :=
  (chunks n s.cfg.ioChunkMax.val).foldl ioAdvance { s with cycTotal := s.cycTotal + n }

/-- The I/O part leaves the audio collaborator's remainder and the parameters alone. -/
theorem afterIo_frame (s : State) (n : Nat) : (afterIo s n).apuRem = s.apuRem ∧ (afterIo s n).cfg = s.cfg := by
  obtain ⟨-, -, -, -, -, -, hapuRem, -, -, -, hcfg, -⟩ :=
    ioAdvance_foldl (chunks n s.cfg.ioChunkMax.val) { s with cycTotal := s.cycTotal + n }
  exact ⟨hapuRem, hcfg⟩

/-- STEP with the remainders at 0: the I/O chunks, then the audio chunks to `APUS` alone, then one publish. -/
theorem exec_step_eq {s : State} (h : AccountsOk s) (c : Cycles) :
    exec (.step c) s = .next { afterIo s c.toNat with
      apus := (chunks c.toNat s.cfg.apuChunkMax.val).foldl Config.apuStep (afterIo s c.toNat).apus
      apuDelivered := (afterIo s c.toNat).apuDelivered + c.toNat
      snap := if (afterIo s c.toNat).synthAttached
        then some ((chunks c.toNat s.cfg.apuChunkMax.val).foldl Config.apuStep (afterIo s c.toNat).apus)
        else (afterIo s c.toNat).snap
      result := .nothing } := by
  obtain ⟨hioRem, hapuRem, -⟩ := accountsOk_iff.mp h
  obtain ⟨hafterRem, hafterCfg⟩ := afterIo_frame s c.toNat
  have hio : ioPart { s with cycTotal := s.cycTotal + c.toNat } c.toNat = afterIo s c.toNat :=
    ioPart_eq (s := { s with cycTotal := s.cycTotal + c.toNat }) hioRem c.toNat
  rw [← hafterCfg, exec_step, advance, hio, apuPart_eq (hafterRem.trans hapuRem), publish_eq]
  rfl

/-- No callback counts: the counter after an `io_step` call goes on from the one before it. -/
theorem ioAdvance_eq (u : State) (k : Nat) :
    ioAdvance u k = { runIo (Config.ioStep u.cfg.ifAddr u.ios k) u with ioDelivered := u.ioDelivered + k } := by
  obtain ⟨-, -, -, -, -, -, -, hio, -⟩ := outOfReach_runIo (Config.ioStep u.cfg.ifAddr u.ios k) u
  simp only [ioAdvance, hio]

/-- Settles O47: the calls of a STEP in their order. -/
theorem stepAdvancesIoThenAudio : Obligations.StepAdvancesIoThenAudio := by
  intro c s h
  refine ⟨afterIo s c.toNat, _, ?_, rfl, exec_step_eq h c⟩
  exact congrArg (List.foldl · _ _) (funext₂ ioAdvance_eq)

/-- Settles O48: of no cycles there are no chunks. -/
theorem stepZeroOnlyPublishes : Obligations.StepZeroOnlyPublishes :=
  fun _ h => exec_step_eq h 0#64

/-! ### Callbacks (43_step_coordinator.md R188) -/

/-- A field that is no collaborator's is left alone by a bus read (20_memory.md R46). -/
theorem busRead_field {α : Type} (f : State → α) (s : State) (a : Addr) (hios : ∀ x, f (s.setIos x) = f s)
    (hapus : ∀ x, f (s.setApus x) = f s) : f (busRead s a).2 = f s := by
  obtain h | ⟨x, h⟩ | ⟨x, h⟩ := busRead_cases s a <;> rw [h]
  · exact hios x
  · exact hapus x

theorem busWrite_result (s : State) (a : Addr) (v : Byte) : (busWrite s a v).result = s.result := by
  obtain ⟨-, -, -, -, -, -, -, -, -, -, -, -, hresult⟩ := outOfReach_busWrite a v (outOfReach_refl s)
  exact hresult

/-- Settles O50: each callback goes on from the state its transaction leaves, but for the result handed back. -/
theorem callbacksAreTransactions : Obligations.CallbacksAreTransactions :=
  fun s a v i _ _ =>
    ⟨⟨(busRead s a.addr).2, busByte s a.addr, rfl,
        busRead_field State.result s a.addr (fun _ => rfl) (fun _ => rfl), rfl⟩,
      ⟨busWrite s a.addr v, rfl, busWrite_result s a.addr v, rfl⟩,
      ⟨s.setIfl (setSource s.ifl i), rfl, rfl, rfl⟩⟩

end Sys2Proof.Machine

/-! ## 20_memory.md and 60_exceptions.md: one step, and what no operation touches

Every operation completes and leaves the parameters and the port alone (`exec_completes`); so a step can only be refused for
its packet. A read outside the collaborators' ranges leaves the whole block as it stands (`busRead_of_outside`). -/

namespace Sys2Proof.Machine

/-- Settles O5: the two ways a step goes that is not refused. -/
theorem stepRunsTheOldestTransaction : Obligations.StepRunsTheOldestTransaction :=
  ⟨fun _ _ _ _ hport hdecode => step_runs hport hdecode, fun _ hport => step_idle hport⟩

/-! ### Every operation completes (60_exceptions.md R220) -/

theorem OutOfReach.cfg_port {s t : State} (h : OutOfReach s t) : t.cfg = s.cfg ∧ t.port = s.port := by
  obtain ⟨-, -, -, -, -, -, -, -, -, hcfg, hport, -⟩ := h
  exact ⟨hcfg, hport⟩

/-- Through the gate or not, an external-RAM write leaves everything but external RAM alone. -/
theorem writeEram_eq (s : State) (a : Addr) (v : Byte) :
    writeEram s a v
      = s.setEram (if s.ctrl.ramEnabled then s.eram.write (eramOffset s.ctrl.ramBank a) v else s.eram) := by
  unfold writeEram
  split <;> rfl

theorem writeEram_field {α : Type} (f : State → α) (s : State) (a : Addr) (v : Byte) (hf : ∀ m, f (s.setEram m) = f s) :
    f (writeEram s a v) = f s := by
  rw [writeEram_eq]
  exact hf _

/-- The operations that go through the bus, the gate of external RAM or a publish by their frames; the last case holds those
whose next state is written out. -/
theorem exec_completes (i : Instr) (s : State) : ∃ t, exec i s = .next t ∧ t.cfg = s.cfg ∧ t.port = s.port := by
  cases i
  case rd a => exact ⟨_, rfl, (outOfReach_busRead s a).cfg_port⟩
  case wr a v => exact ⟨_, rfl, (outOfReach_busWrite a v (outOfReach_refl s)).cfg_port⟩
  case step c => exact ⟨_, rfl, (outOfReach_advance s c.toNat).cfg_port⟩
  case wrApu a v => exact ⟨_, exec_wrApu a v s, rfl, rfl⟩
  case wrEram a v =>
    refine ⟨_, exec_wrEram a v s, ?_⟩
    rw [writeEram_eq]
    exact ⟨rfl, rfl⟩
  all_goals exact ⟨_, rfl, rfl, rfl⟩

/-- Settles O6: every operation by `exec_completes`; there is no fault; a step that runs an operation is not refused. -/
theorem everyOperationCompletes : Obligations.EveryOperationCompletes := by
  refine ⟨exec_completes, fun _ => nofun, fun s r h => ?_⟩
  cases hport : s.port with
  | nil => rw [step_idle hport] at h; cases h
  | cons p rest =>
    cases hdecode : decode s.cfg.ifAddr p with
    | error e =>
      rw [step_refuses hport hdecode] at h
      cases h
      exact ⟨p, rest, e, rfl, hdecode, rfl⟩
    | ok i =>
      obtain ⟨t, ht, -⟩ := exec_completes i { s with port := rest }
      rw [step_runs hport hdecode, ht] at h
      cases h

/-! ### Reads without side effects (20_memory.md R46) -/

theorem busRead_of_outside {s : State} {a : Addr} (hio : Config.ioOwned s.cfg.ifAddr a = false)
    (hapu : ¬ (0xFF10 ≤ a.toNat ∧ a.toNat ≤ 0xFF3F)) : busRead s a = (busByte s a, s) := by
  have hholds := regionOf_holds s.cfg.ifAddr a
  have hregion := mt (ioOwned_iff s.cfg.ifAddr a).mpr (Bool.eq_false_iff.mp hio)
  unfold busByte busRead
  cases hr : regionOf s.cfg.ifAddr a
  case vram | oam | io => simp [hr] at hregion
  case apu =>
    rw [hr] at hholds
    exact absurd hholds hapu
  all_goals rfl

/-- What an earlier transaction handed back is no part of what the bus shows. -/
theorem busByte_result (s : State) (r : Result) (a : Addr) : busByte { s with result := r } a = busByte s a :=
  busByte_eq_of_buffers r rfl rfl rfl

/-- Settles O9: the first read leaves the state as it stands, and the second meets the same bytes. -/
theorem readOutsideTheCollaboratorsChangesNothing : Obligations.ReadOutsideTheCollaboratorsChangesNothing := by
  intro a s hio hapu
  have hread (r : Result) : exec (.rd a) { s with result := r } = .next { s with result := .byte (busByte s a) } := by
    rw [← busByte_result s r a]
    exact congrArg readDone (busRead_of_outside (s := { s with result := r }) hio hapu)
  exact ⟨busByte s a, hread s.result, hread _⟩

/-- Settles O17: the sub-operations by their meanings, RD and WR by their region. -/
theorem holesReadFillAndDropWrites : Obligations.HolesReadFillAndDropWrites :=
  fun _ v _ h => ⟨rfl, rfl, exec_rd .unmapped h, exec_wr .unmapped v h⟩

end Sys2Proof.Machine

/-! ## 41_bank_controller.md: banks, translations and registers

The bank functions are said by variant (`romBank_of_type1_high` and its siblings), with their bounds; the translations follow
from the offsets. -/

namespace Sys2Proof.Machine

/-! ### Registers of Type1, Type3 and Type5 (41_bank_controller.md R134, R136, R139, R144) -/

theorem toNat_romb5Of (v : Byte) : (romb5Of v).toNat = if v.toNat % 32 = 0 then 1 else v.toNat % 32 := by
  rw [romb5Of, toNat_zeroAsOne (by decide), BitVec.toNat_setWidth]

theorem modeOf_eq_decide (v : Byte) : modeOf v = decide (v.toNat % 2 = 1) := Nat.testBit_zero v.toNat

theorem toNat_ramb4Of (v : Byte) : (ramb4Of v).toNat = v.toNat % 16 := BitVec.toNat_setWidth 4 v

/-- Settles O27: both writes by the register's update; the RAM bank tests the stored mode. -/
theorem type1BankAndModeWrites : Obligations.Type1BankAndModeWrites := by
  intro a v s r h
  refine ⟨⟨_, romb5Of v, writeDone_onType1 h (Type1.romb v), rfl, toNat_romb5Of v⟩, ?_, ?_⟩
  · rw [← modeOf_eq_decide]
    exact writeDone_onType1 h (Type1.setMode v)
  · simp only [Controller.ramBank, decide_eq_true_eq]

/-- Settles O30: both updates store `ramb4Of`, which the RAM bank then is. -/
theorem ramBankWrites : Obligations.RamBankWrites :=
  fun _ v _ =>
    ⟨fun _ h => ⟨_, ramb4Of v, writeDone_onType3 h (Type3.ramb v), rfl, toNat_ramb4Of v, toNat_ramb4Of v⟩,
      fun _ h => ⟨_, ramb4Of v, writeDone_onType5 h (Type5.ramb v), rfl, toNat_ramb4Of v, toNat_ramb4Of v⟩⟩

/-! ### Control writes without a register -/

theorem Controller.onType1_of_variant_ne {c : Controller} (h : c.variant ≠ .type1) (f : Type1 → Type1) :
    c.onType1 f = c := by
  cases c
  case type1 => exact absurd rfl h
  all_goals rfl

theorem Controller.onType3_of_variant_ne {c : Controller} (h : c.variant ≠ .type3) (f : Type3 → Type3) :
    c.onType3 f = c := by
  cases c
  case type3 => exact absurd rfl h
  all_goals rfl

theorem Controller.onType5_of_variant_ne {c : Controller} (h : c.variant ≠ .type5) (f : Type5 → Type5) :
    c.onType5 f = c := by
  cases c
  case type5 => exact absurd rfl h
  all_goals rfl

theorem writeDone_setCtrl_of_eq {s : State} {c : Controller} (h : c = s.ctrl) :
    writeDone (s.setCtrl c) = .next { s with result := .nothing } := by
  rw [h]
  rfl

/-- Settles O33: T3.LATCH and T5.RSVD by their meanings; under another variant no update reaches a register. -/
theorem controlWritesWithoutARegister : Obligations.ControlWritesWithoutARegister := by
  intro a v s
  refine ⟨rfl, rfl, fun h => ?_, fun h => ?_, fun h => ?_⟩
  all_goals simp only [List.forall_mem_cons]
  · have hkeep (f : Type1 → Type1) := writeDone_setCtrl_of_eq (Controller.onType1_of_variant_ne h f)
    exact ⟨hkeep _, hkeep _, hkeep _, hkeep _, List.forall_mem_nil _⟩
  · have hkeep (f : Type3 → Type3) := writeDone_setCtrl_of_eq (Controller.onType3_of_variant_ne h f)
    exact ⟨hkeep _, hkeep _, hkeep _, List.forall_mem_nil _⟩
  · have hkeep (f : Type5 → Type5) := writeDone_setCtrl_of_eq (Controller.onType5_of_variant_ne h f)
    exact ⟨hkeep _, hkeep _, hkeep _, hkeep _, List.forall_mem_nil _⟩

/-! ### The ROM bank (41_bank_controller.md R147) -/

theorem romBank_of_none {s : State} (h : s.ctrl = .none) : s.romBank = 1 := by
  rw [State.romBank, h]
  rfl

theorem romBank_of_type1_high {s : State} {r : Type1} (h : s.ctrl = .type1 r)
    (hhigh : r.mode = false ∨ s.cfg.t1HighInMode1 = true) : s.romBank = r.sec.toNat * 32 + r.romb5.toNat := by
  rw [State.romBank, h, Controller.romBank, if_pos hhigh]
  exact append_toNat r.sec r.romb5

theorem romBank_of_type1_low {s : State} {r : Type1} (h : s.ctrl = .type1 r) (hmode : r.mode = true)
    (hlow : s.cfg.t1HighInMode1 = false) : s.romBank = r.romb5.toNat := by
  rw [State.romBank, h, Controller.romBank, if_neg (by simp [hmode, hlow])]

theorem romBank_of_type3 {s : State} {r : Type3} (h : s.ctrl = .type3 r) : s.romBank = r.romb7.toNat := by
  rw [State.romBank, h]
  rfl

theorem romBank_of_type5 {s : State} {r : Type5} (h : s.ctrl = .type5 r) : s.romBank = r.romb9.toNat := by
  rw [State.romBank, h]
  rfl

theorem exec_curRomBank {s : State} {n : Nat} (h : s.romBank = n) :
    exec .curRomBank s = .next { s with result := .index n } := by
  rw [← h]
  rfl

/-- Settles O34: the bank of each variant. -/
theorem currentRomBank : Obligations.CurrentRomBank :=
  fun _ => ⟨rfl, fun h => exec_curRomBank (romBank_of_none h),
    fun _ h hhigh => exec_curRomBank (romBank_of_type1_high h hhigh),
    fun _ h hmode hlow => exec_curRomBank (romBank_of_type1_low h hmode hlow),
    fun _ h => exec_curRomBank (romBank_of_type3 h), fun _ h => exec_curRomBank (romBank_of_type5 h)⟩

/-- Whatever the mode reads `sec` as, the low five bits of a `Type1` bank are `romb5`. -/
theorem romBank_mod_of_type1 {s : State} {r : Type1} (h : s.ctrl = .type1 r) : s.romBank % 0x20 = r.romb5.toNat := by
  have hlt := r.romb5.isLt
  by_cases hhigh : r.mode = false ∨ s.cfg.t1HighInMode1 = true
  · rw [romBank_of_type1_high h hhigh]
    omega
  · obtain ⟨hmode, hlow⟩ := not_or.mp hhigh
    rw [romBank_of_type1_low h (Bool.eq_true_of_not_eq_false hmode) (Bool.eq_false_of_not_eq_true hlow)]
    omega

/-- Settles O37: the stored bank register is not 0, so neither is what the bank shows of it. -/
theorem switchableWindowNeverShowsBankZero : Obligations.SwitchableWindowNeverShowsBankZero := by
  intro s hok
  cases hc : s.ctrl with
  | none | type5 r => exact ⟨nofun, nofun⟩
  | type1 r =>
    have hne : r.romb5 ≠ 0#5 := by simpa [hc, Controller.banksOk] using hok
    refine ⟨fun _ => ?_, nofun⟩
    rw [romBank_mod_of_type1 hc]
    exact fun h0 => hne (BitVec.eq_of_toNat_eq h0)
  | type3 r =>
    have hne : r.romb7 ≠ 0#7 := by simpa [hc, Controller.banksOk] using hok
    refine ⟨nofun, fun _ => ?_⟩
    rw [romBank_of_type3 hc]
    exact fun h0 => hne (BitVec.eq_of_toNat_eq h0)

/-! ### The translations (41_bank_controller.md R150, R151, R154) -/

theorem Controller.romBank_lt (high : Bool) (c : Controller) : c.romBank high < 512 := by
  cases c with
  | none => exact (by decide : 1 < 512)
  | type1 r =>
    rw [Controller.romBank]
    split
    · exact lt_of_lt_of_le (r.sec ++ r.romb5).isLt (by decide)
    · exact lt_of_lt_of_le r.romb5.isLt (by decide)
  | type3 r => exact lt_of_lt_of_le r.romb7.isLt (by decide)
  | type5 r => exact r.romb9.isLt

theorem Controller.ramBank_lt (c : Controller) : c.ramBank < 16 := by
  cases c with
  | none => exact (by decide : 0 < 16)
  | type1 r =>
    rw [Controller.ramBank]
    split
    · exact lt_of_lt_of_le r.sec.isLt (by decide)
    · decide
  | type3 r => exact r.ramb4.isLt
  | type5 r => exact r.ramb4.isLt

theorem xlatRomOffset_rom0 (bank : Nat) {a : Addr} (h : a.toNat ≤ 0x3FFF) : xlatRomOffset bank a = a.toNat := if_pos h

theorem xlatRomOffset_above (bank : Nat) {a : Addr} (h : 0x8000 ≤ a.toNat) :
    xlatRomOffset bank a = bank * 0x4000 + a.toNat % 0x4000 := by
  rw [xlatRomOffset, if_neg (by omega), if_neg (by omega), BitVec.toNat_setWidth]

theorem exec_xlatRom {a : Addr} {s : State} {n : Nat} (h : xlatRomOffset s.romBank a = n) :
    exec (.xlatRom a) s = .next { s with result := .offset n } := by
  rw [← h]
  rfl

theorem exec_xlatRam (a : Addr) (s : State) :
    exec (.xlatRam a) s = .next { s with result := .offset (s.ctrl.ramBank * 0x2000 + a.toNat % 0x2000) } := by
  rw [← BitVec.toNat_setWidth 13 a]
  rfl

/-- Settles O35: each range by its offset, the RAM bank by variant, the bounds by the widths of the bank registers. -/
theorem translationsGiveTheWindowOffsets : Obligations.TranslationsGiveTheWindowOffsets := by
  intro a s
  have hrom : s.romBank < 512 := Controller.romBank_lt _ _
  have hram : s.ctrl.ramBank < 16 := Controller.ramBank_lt _
  exact ⟨fun h => exec_xlatRom (xlatRomOffset_rom0 _ h),
    fun hlo hhi => exec_xlatRom ((xlatRomOffset_romx _ ⟨hlo, hhi⟩).trans (romxOffset_eq _ hlo)),
    fun h => exec_xlatRom (xlatRomOffset_above _ h), exec_xlatRam a s,
    fun h => h ▸ rfl, fun _ h => h ▸ rfl, fun _ h => h ▸ rfl, fun _ h => h ▸ rfl, by omega, by omega⟩

/-! ### MBC_READ (41_bank_controller.md R152) -/

/-- In ROM space the bus reads the image at the offset `XLAT_ROM` gives. -/
theorem busRead_of_rom_space {s : State} {a : Addr} (h : a.toNat ≤ 0x7FFF) : busRead s a = (mbcRead s a, s) := by
  rw [mbcRead, if_pos h, busRead.eq_def]
  by_cases hlo : a.toNat ≤ 0x3FFF
  · rw [regionOf_eq_of_holds (r := .rom0) hlo, xlatRomOffset_rom0 _ hlo]
    rfl
  · have hromx : 0x4000 ≤ a.toNat ∧ a.toNat ≤ 0x7FFF := ⟨by omega, h⟩
    rw [regionOf_eq_of_holds (r := .romx) hromx, xlatRomOffset_romx _ hromx]
    rfl

/-- Settles O36: in ROM space by the offset both use; above it the fill byte. -/
theorem controllerReadAgreesWithTheBus : Obligations.ControllerReadAgreesWithTheBus := by
  intro a s
  refine ⟨fun h => ?_, fun h => ?_⟩
  · have hread : busRead s a = (mbcRead s a, s) := busRead_of_rom_space h
    refine ⟨congrArg readDone hread.symm, ?_⟩
    rw [busByte, hread]
    rfl
  · have hread : mbcRead s a = Config.fill := if_neg (by omega)
    exact congrArg (fun b => readDone (b, s)) hread

end Sys2Proof.Machine

/-! ## 60_exceptions.md section 2: who changes `IE` and `IF`

A bus write reaches `IF` at `IF_ADDR` alone but for the collaborators' request masks (`requestsKept_busWrite`), and `IE` at
0xFFFF alone (`busWrite_ie`). An `io_step` call that never writes such an address is covered by one induction
(`runIo_keeps_of_neverWrites`). -/

namespace Sys2Proof

theorem Source.index_injective : Function.Injective Source.index := fun i j h => by
  rw [← Option.some_inj, ← Source.ofIndex_index i, h, Source.ofIndex_index]

end Sys2Proof

namespace Sys2Proof.Machine

/-- Settles O41: the words by the `op` table; each accessor has the meaning of the bus access at its byte's address. -/
theorem rawAccessorsAgreeWithTheBus : Obligations.RawAccessorsAgreeWithTheBus := by
  intro v s
  have hifl := Region.holds_ifAddr s.cfg
  have hdecode (o : Op) (d : Byte) := decode_wordP s.cfg.ifAddr o 0#16 d [] []
  exact ⟨hdecode .getIeRaw 0#8, hdecode .getIfRaw 0#8, hdecode .setIfRaw v, rfl,
    (exec_rd (a := 0xFFFF#16) .ie rfl).symm, rfl, (exec_rd .ifl hifl).symm, rfl, (exec_wr .ifl v hifl).symm⟩

/-- What the callbacks other than a write to `x` keep, an `io_step` call that never writes `x` keeps. -/
theorem runIo_keeps_of_neverWrites {P : State → Prop} {p x : Addr} (hios : ∀ s y, P s → P (s.setIos y))
    (hapus : ∀ s y, P s → P (s.setApus y)) (hwr : ∀ s a v, a ≠ x → P s → P (busWrite s a v))
    (hirq : ∀ s i, P s → P (s.setIfl (setSource s.ifl i))) (prog : IoProg p) (hnever : NeverWrites x prog) :
    ∀ s, P s → P (runIo prog s) := by
  induction prog with
  | done y => exact fun s h => hios s y h
  | read a k ih =>
    intro s h
    refine ih _ (hnever _) _ ?_
    obtain h' | ⟨y, h'⟩ | ⟨y, h'⟩ := busRead_cases s a.addr <;> rw [h']
    · exact h
    · exact hios s y h
    · exact hapus s y h
  | write a v k ih =>
    obtain ⟨hne, hnever⟩ := hnever
    exact fun s h => ih hnever _ (hwr s a.addr v hne h)
  | irq i k ih => exact fun s h => ih hnever _ (hirq s i h)

/-! ### Requests -/

/-- Every request bit of the first byte is in the second. -/
def RequestsKept (ifl ifl' : Byte) : Prop := ∀ k, ifl.getLsbD k = true → ifl'.getLsbD k = true

theorem requestsKept_of_eq {b c : Byte} (h : c = b) : RequestsKept b c := by
  intro k hk
  rwa [h]

theorem RequestsKept.trans {b c d : Byte} (hbc : RequestsKept b c) (hcd : RequestsKept c d) : RequestsKept b d :=
  fun k h => hcd k (hbc k h)

theorem requestsKept_orRequests (ifl q : Byte) : RequestsKept ifl (orRequests ifl q) := by
  intro k h
  rw [getLsbD_orRequests, h, Bool.true_or]

theorem requestsKept_setSource (ifl : Byte) (i : Source) : RequestsKept ifl (setSource ifl i) := by
  intro k h
  rw [getLsbD_setSource, h, ite_self]

/-- A bus write elsewhere than to `IF_ADDR` clears no request (40_bus_read_write.md R115, R121). -/
theorem requestsKept_busWrite {s : State} {a : Addr} (v : Byte) (ha : a ≠ s.cfg.ifAddr) :
    RequestsKept s.ifl (busWrite s a v).ifl := by
  have hholds := regionOf_holds s.cfg.ifAddr a
  unfold busWrite
  cases hr : regionOf s.cfg.ifAddr a
  case ifl =>
    rw [hr] at hholds
    exact absurd hholds.2 ha
  case vram | oam | io => exact requestsKept_orRequests _ _
  case eram => exact requestsKept_of_eq (writeEram_field State.ifl s a v fun _ => rfl)
  case apu => exact requestsKept_of_eq (publish_ifl _)
  all_goals exact requestsKept_of_eq rfl

theorem busWrite_ifAddr_ifl (s : State) (v : Byte) : (busWrite s s.cfg.ifAddr v).ifl = v := by
  rw [busWrite, regionOf_ifAddr s.cfg.ifAddrOk]
  rfl

/-- The operation writes this byte over all of `IF`. -/
def ReplacesIf (s : State) (i : Instr) (v : Byte) : Prop := i = .setIfRaw v ∨ i = .wrIf v ∨ i = .wr s.cfg.ifAddr v

theorem exec_replaces_or_clears_or_keeps {i : Instr} {s t : State} (h : exec i s = .next t) (hstep : ∀ c, i ≠ .step c)
    (hreset : i ≠ .reset) :
    ReplacesIf s i t.ifl ∨ (∃ k, i = .irqClear k ∧ t.ifl = clearSource s.ifl k) ∨ RequestsKept s.ifl t.ifl := by
  cases i
  case step c => exact absurd rfl (hstep c)
  case reset => exact absurd rfl hreset
  all_goals obtain rfl := Host.Outcome.next.inj h
  case setIfRaw v => exact .inl (.inl rfl)
  case wrIf v => exact .inl (.inr (.inl rfl))
  case irqClear k => exact .inr (.inl ⟨k, rfl, rfl⟩)
  case wr a v =>
    by_cases ha : a = s.cfg.ifAddr
    · subst ha
      exact .inl (.inr (.inr (congrArg (Instr.wr _) (busWrite_ifAddr_ifl s v).symm)))
    · exact .inr (.inr (requestsKept_busWrite v ha))
  case rd a => exact .inr (.inr (requestsKept_of_eq (busRead_field State.ifl s a (fun _ => rfl) (fun _ => rfl))))
  case wrVram | wrOam | wrIo => exact .inr (.inr (requestsKept_orRequests _ _))
  case irqRequest k => exact .inr (.inr (requestsKept_setSource _ _))
  case wrEram a v => exact .inr (.inr (requestsKept_of_eq (writeEram_field State.ifl s a v fun _ => rfl)))
  case wrApu a v => exact .inr (.inr (requestsKept_of_eq (publish_ifl _)))
  all_goals exact .inr (.inr (requestsKept_of_eq rfl))

/-- An `io_step` call that never writes `IF_ADDR` clears no request: `IF_ADDR` stays what it is in the call. -/
theorem requestsKept_runIo {s : State} {prog : IoProg s.cfg.ifAddr} (hnever : NeverWrites s.cfg.ifAddr prog) :
    RequestsKept s.ifl (runIo prog s).ifl := by
  obtain ⟨-, hkept⟩ := runIo_keeps_of_neverWrites
    (P := fun u => u.cfg.ifAddr = s.cfg.ifAddr ∧ RequestsKept s.ifl u.ifl) (fun _ _ h => h) (fun _ _ h => h)
    (fun u a v ha ⟨hcfg, hkept⟩ => by
      obtain ⟨hcfg', -⟩ := (outOfReach_busWrite a v (outOfReach_refl u)).cfg_port
      exact ⟨hcfg' ▸ hcfg, hkept.trans (requestsKept_busWrite v (hcfg ▸ ha))⟩)
    (fun _ _ ⟨hcfg, hkept⟩ => ⟨hcfg, hkept.trans (requestsKept_setSource _ _)⟩)
    prog hnever s ⟨rfl, requestsKept_of_eq rfl⟩
  exact hkept

/-- Settles O42: an operation that keeps every request clears none; IRQ_CLEAR clears one source's; the others replace the
byte. The second part is the induction over an `io_step` call. -/
theorem requestsAreClearedOnlyOnDemand : Obligations.RequestsAreClearedOnlyOnDemand := by
  refine ⟨fun i s t k h hstep hreset hset hclear => ?_, fun s prog k hnever hset => requestsKept_runIo hnever _ hset⟩
  obtain hreplace | ⟨j, rfl, hj⟩ | hkept := exec_replaces_or_clears_or_keeps h hstep hreset
  · exact .inr ⟨t.ifl, hclear, hreplace⟩
  · refine .inl ?_
    rw [hj, getLsbD_clearSource] at hclear
    by_cases hkj : k.index = j.index
    · rw [Source.index_injective hkj]
    · rw [if_neg hkj, hset] at hclear
      cases hclear
  · rw [hkept _ hset] at hclear
    cases hclear

/-! ### Enables -/

/-- A bus write elsewhere than to 0xFFFF leaves `IE` alone (40_bus_read_write.md R124). -/
theorem busWrite_ie (s : State) {a : Addr} (v : Byte) (ha : a ≠ 0xFFFF#16) : (busWrite s a v).ie = s.ie := by
  have hholds := regionOf_holds s.cfg.ifAddr a
  unfold busWrite
  cases hr : regionOf s.cfg.ifAddr a
  case ie =>
    rw [hr] at hholds
    exact absurd (BitVec.eq_of_toNat_eq (y := 0xFFFF#16) hholds) ha
  case eram => exact writeEram_field State.ie s a v fun _ => rfl
  case apu => exact publish_ie _
  all_goals rfl

theorem exec_ie_eq_of_not_enable {i : Instr} {s t : State} (h : exec i s = .next t) (hstep : ∀ c, i ≠ .step c)
    (hreset : i ≠ .reset) (henable : ∀ k, i ≠ .irqEnable k) (hdisable : ∀ k, i ≠ .irqDisable k)
    (hwrIe : ∀ v, i ≠ .wrIe v) (hwr : ∀ v, i ≠ .wr 0xFFFF#16 v) : t.ie = s.ie := by
  cases i
  case step c => exact absurd rfl (hstep c)
  case reset => exact absurd rfl hreset
  case irqEnable k => exact absurd rfl (henable k)
  case irqDisable k => exact absurd rfl (hdisable k)
  case wrIe v => exact absurd rfl (hwrIe v)
  all_goals obtain rfl := Host.Outcome.next.inj h
  case wr a v => exact busWrite_ie s v fun ha => hwr v (by rw [ha])
  case rd a => exact busRead_field State.ie s a (fun _ => rfl) (fun _ => rfl)
  case wrEram a v => exact writeEram_field State.ie s a v fun _ => rfl
  case wrApu a v => exact publish_ie _
  all_goals rfl

/-- Settles O43: every other operation leaves `IE` alone; so does, by the induction over it, an `io_step` call that never
writes 0xFFFF. -/
theorem enablesAreChangedOnlyOnDemand : Obligations.EnablesAreChangedOnlyOnDemand := by
  refine ⟨fun i s t h hstep hreset hne => ?_, fun s prog hnever => ?_⟩
  · by_contra hnot
    simp only [not_or, not_exists] at hnot
    obtain ⟨hnamed, hwrite⟩ := hnot
    exact hne (exec_ie_eq_of_not_enable h hstep hreset (fun k => (hnamed k).1) (fun k => (hnamed k).2)
      (fun v => (hwrite v).1) (fun v => (hwrite v).2))
  · exact runIo_keeps_of_neverWrites (P := fun u => u.ie = s.ie) (fun _ _ h => h) (fun _ _ h => h)
      (fun u a v ha h => (busWrite_ie u v ha).trans h) (fun _ _ h => h) prog hnever s rfl

/-! ### IRQ_ACK (42_interrupt_ops.md R169) -/

theorem exec_irqResolve (s : State) : exec .irqResolve s = .next { s with result := .source (prio s.ie s.ifl) } := rfl

theorem prio_of_exec_irqResolve {s : State} {r : Option Source}
    (h : exec .irqResolve s = .next { s with result := .source r }) : prio s.ie s.ifl = r :=
  Result.source.inj (congrArg State.result (Host.Outcome.next.inj h))

theorem irqAck_eq (s : State) : irqAck s = .irqResolve :: (prio s.ie s.ifl).toList.map .irqClear := by
  unfold irqAck
  cases prio s.ie s.ifl <;> rfl

/-- `IF` after the winner, if there is one, has been cleared. -/
def clearWinner (ifl : Byte) : Option Source → Byte
  | none => ifl
  | some i => clearSource ifl i

theorem execAll_irqAck (s : State) :
    ∃ r, execAll (irqAck s) s = .next { s with ifl := clearWinner s.ifl (prio s.ie s.ifl), result := r } := by
  rw [irqAck_eq]
  cases prio s.ie s.ifl with
  | none => exact ⟨_, rfl⟩
  | some i => exact ⟨_, rfl⟩

theorem execIrqAck_eq {s u : State} (h : execAll (irqAck s) s = .next u) :
    execIrqAck s = .next { u with result := .source (prio s.ie s.ifl) } := by
  rw [execIrqAck, h]
  rfl

/-- With the winner cleared, what still pends has a higher index. -/
theorem index_lt_of_prio_clearSource {ie ifl : Byte} {i j : Source} (hi : prio ie ifl = some i)
    (hj : prio ie (clearSource ifl i) = some j) : i.index < j.index := by
  obtain ⟨-, hlowest⟩ := prio_eq_some_iff.mp hi
  obtain ⟨⟨hie, hifl⟩, -⟩ := prio_eq_some_iff.mp hj
  rw [getLsbD_clearSource] at hifl
  split at hifl
  case isTrue => cases hifl
  case isFalse hne =>
    have hge : ¬ j.index < i.index := fun hlt => hlowest j hlt ⟨hie, hifl⟩
    omega

/-- Settles O44: the winner is what the encoder names; what IRQ_ACK leaves of `IF` is said by `clearWinner`. -/
theorem acknowledgeClearsTheWinner : Obligations.AcknowledgeClearsTheWinner := by
  intro s
  obtain ⟨r, hall⟩ := execAll_irqAck s
  refine ⟨prio s.ie s.ifl, _, _, exec_irqResolve s, irqAck_eq s, hall, execIrqAck_eq hall, rfl, rfl,
    fun i hi => ⟨?_, fun j hj => ?_⟩, fun hnone => ?_⟩
  · rw [hi]
    exact getLsbD_clearSource s.ifl i
  · rw [hi] at hj
    exact index_lt_of_prio_clearSource hi (prio_of_exec_irqResolve hj)
  · rw [hnone]
    rfl

end Sys2Proof.Machine

/-! ## 44_cartridge_and_passthrough.md: load, snapshot and pass-through; RESET

The header tables are read code by code (`variantOfCode_type1` and its siblings). `SNAP` changes only by a publish: between
publishes, and while no synth is attached in STEP too, it is kept. -/

namespace Sys2Proof

/-! ### The header tables (30_encoding.md R78) -/

theorem variantOfCode_type1 {c : Byte} (h : c.toNat ∈ [0x01, 0x02, 0x03]) : variantOfCode c = .type1 := by
  simp only [List.mem_cons, List.not_mem_nil, or_false] at h
  simp (disch := omega) only [variantOfCode, if_pos]

theorem variantOfCode_type3 {c : Byte} (h : c.toNat ∈ [0x0F, 0x10, 0x11, 0x12, 0x13]) : variantOfCode c = .type3 := by
  simp only [List.mem_cons, List.not_mem_nil, or_false] at h
  simp (disch := omega) only [variantOfCode, if_pos, if_neg]

theorem variantOfCode_type5 {c : Byte} (h : c.toNat ∈ [0x19, 0x1A, 0x1B, 0x1C, 0x1D, 0x1E]) :
    variantOfCode c = .type5 := by
  simp only [List.mem_cons, List.not_mem_nil, or_false] at h
  simp (disch := omega) only [variantOfCode, if_pos, if_neg]

theorem variantOfCode_none {c : Byte}
    (h : c.toNat ∉ [0x01, 0x02, 0x03, 0x0F, 0x10, 0x11, 0x12, 0x13, 0x19, 0x1A, 0x1B, 0x1C, 0x1D, 0x1E]) :
    variantOfCode c = .none := by
  simp only [List.mem_cons, List.not_mem_nil, or_false, not_or] at h
  simp (disch := omega) only [variantOfCode, if_neg]

theorem eramLenOfCode_none {c : Byte} (h : c.toNat ∉ [0x01, 0x02, 0x03, 0x04, 0x05]) : eramLenOfCode c = 0 := by
  have hne {d : Byte} (hd : d.toNat ∈ [0x01, 0x02, 0x03, 0x04, 0x05]) : c ≠ d := fun hc => h (hc ▸ hd)
  rw [eramLenOfCode, if_neg (hne (by decide)), if_neg (hne (by decide)), if_neg (hne (by decide)),
    if_neg (hne (by decide)), if_neg (hne (by decide))]

theorem eramLenOfCode_eq {c : Byte} (d : Byte) (h : c.toNat = d.toNat) : eramLenOfCode c = eramLenOfCode d :=
  congrArg eramLenOfCode (BitVec.eq_of_toNat_eq h)

theorem deriveVariant_of_absent {image : List Byte} (h : image.length ≤ 0x0147) : deriveVariant image = .none := by
  rw [deriveVariant, hdrTypeOff, List.getElem?_eq_none h]

theorem deriveVariant_of_present {image : List Byte} (h : 0x0147 < image.length) :
    deriveVariant image = variantOfCode image[0x0147] := by
  rw [deriveVariant, hdrTypeOff, List.getElem?_eq_getElem h]

theorem deriveEramLen_of_absent {image : List Byte} (h : image.length ≤ 0x0149) : deriveEramLen image = 0 := by
  rw [deriveEramLen, hdrRamOff, List.getElem?_eq_none h]

theorem deriveEramLen_of_present {image : List Byte} (h : 0x0149 < image.length) :
    deriveEramLen image = eramLenOfCode image[0x0149] := by
  rw [deriveEramLen, hdrRamOff, List.getElem?_eq_getElem h]

end Sys2Proof

namespace Sys2Proof.Machine

/-- Settles O52: the fields of the loaded state, a fresh buffer for external RAM, and the header tables. -/
theorem loadReplacesTheCartridgeState : Obligations.LoadReplacesTheCartridgeState := by
  intro image s
  refine ⟨_, exec_loadRom image s, rfl, rfl, rfl, fun j hj => Memory.read_fresh s.draws hj, fun hdraws => ?_,
    congrArg Controller.initial, congrArg Controller.initial, congrArg Controller.initial, congrArg Controller.initial,
    deriveVariant_of_absent, fun h => ?_, deriveEramLen_of_absent, fun h => ?_⟩
  · obtain ⟨heram, hwram, hhram, -⟩ := hdraws
    exact ⟨heram.ne', hwram.ne', hhram.ne'⟩
  · rw [deriveVariant_of_present h]
    exact ⟨variantOfCode_type1, variantOfCode_type3, variantOfCode_type5, variantOfCode_none⟩
  · have hsize : (s.loaded image).eram.size = eramLenOfCode image[0x0149] := deriveEramLen_of_present h
    rw [hsize]
    exact ⟨eramLenOfCode_eq 0x01#8, eramLenOfCode_eq 0x02#8, eramLenOfCode_eq 0x03#8, eramLenOfCode_eq 0x04#8,
      eramLenOfCode_eq 0x05#8, eramLenOfCode_none⟩

theorem Controller.ramEnabled_initial {x : Variant} (h : x ≠ .none) : (Controller.initial x).ramEnabled = false := by
  cases x
  case none => exact absurd rfl h
  all_goals rfl

/-- Settles O53: ROM space by the load's bank 1, the RAM window by the closed gate of every banked variant. -/
theorem afterLoadTheWindowsShowTheImage : Obligations.AfterLoadTheWindowsShowTheImage := by
  intro image s
  refine ⟨_, exec_loadRom image s, fun a ha => exec_rd_loaded image s ha, fun hvariant a hlo hhi => ?_⟩
  have hclosed : (s.loaded image).ctrl.ramEnabled = false := Controller.ramEnabled_initial hvariant
  rw [exec_rd .eram ⟨hlo, hhi⟩, Region.readInstr, exec_rdEram, readEram_of_closed_or_beyond (.inl hclosed)]
  rfl

theorem exec_irqResolve_of_prio {s : State} {r : Option Source} (h : prio s.ie s.ifl = r) :
    exec .irqResolve s = .next { s with result := .source r } := by
  rw [exec_irqResolve, h]

/-- Settles O55: the fields of the creation state, two fresh buffers, and no source pending. -/
theorem resetCreatesTheInitialState : Obligations.ResetCreatesTheInitialState := by
  intro s
  exact ⟨_, rfl, rfl, rfl, rfl, rfl, fun j hj => Memory.read_fresh (s.draws + 1) hj, rfl,
    fun j hj => Memory.read_fresh (s.draws + 2) hj, rfl, rfl, rfl, rfl, rfl, rfl, rfl, rfl, rfl, rfl, rfl, rfl, rfl,
    Nat.le_add_right _ _, Nat.le_add_right _ _, (Nat.lt_succ_self (s.draws + 1)).ne,
    exec_irqResolve_of_prio (by decide : prio 0x00#8 0x00#8 = none)⟩

/-- Settles O56: the meaning's three fields. -/
theorem attachBindsAndPublishes : Obligations.AttachBindsAndPublishes :=
  fun _ _ => ⟨_, rfl, rfl, rfl⟩

/-- Settles O58: both meanings are one call of the collaborator. -/
theorem passThroughsReachTheCollaborator : Obligations.PassThroughsReachTheCollaborator :=
  fun _ _ => ⟨rfl, rfl⟩

/-! ### The snapshot (44_cartridge_and_passthrough.md R207) -/

/-- Outside the sound registers a bus write publishes nothing. -/
theorem busWrite_snap {s : State} {a : Addr} (v : Byte) (ha : ¬ (0xFF10 ≤ a.toNat ∧ a.toNat ≤ 0xFF3F)) :
    (busWrite s a v).snap = s.snap := by
  have hholds := regionOf_holds s.cfg.ifAddr a
  unfold busWrite
  cases hr : regionOf s.cfg.ifAddr a
  case apu =>
    rw [hr] at hholds
    exact absurd hholds ha
  case eram => exact writeEram_field State.snap s a v fun _ => rfl
  all_goals rfl

theorem publish_snap_eq (s : State) :
    (publish s).snap = if (publish s).synthAttached then some (publish s).apus else s.snap := by
  rw [publish_snap, publish_apus, State.synthAttached, State.synthAttached, publish_synth]

/-- What the callbacks and the counting keep, the I/O part of STEP keeps. -/
theorem ioPart_keeps {P : State → Prop} (hios : ∀ s x, P s → P (s.setIos x)) (hapus : ∀ s x, P s → P (s.setApus x))
    (hwr : ∀ s a v, P s → P (busWrite s a v)) (hirq : ∀ s i, P s → P (s.setIfl (setSource s.ifl i)))
    (hdelivered : ∀ s k, P s → P { s with ioDelivered := k }) (hrem : ∀ s k, P s → P { s with ioRem := k })
    {s : State} (n : Nat) (h : P s) : P (ioPart s n) :=
  List.foldlRecOn _ _ (hrem s _ h) fun u hu c _ =>
    hdelivered _ _ (runIo_keeps hios hapus hwr hirq (Config.ioStep u.cfg.ifAddr u.ios c) u hu)

/-- No synth is attached and `SNAP` holds this. -/
def UnattachedWith (x : Option ApuState) (s : State) : Prop := s.synthAttached = false ∧ s.snap = x

theorem UnattachedWith.publish {x : Option ApuState} {s : State} (h : UnattachedWith x s) :
    UnattachedWith x (publish s) := by
  have hpublish : Machine.publish s = s := if_neg (by simp [h.1])
  rwa [hpublish]

theorem UnattachedWith.busWrite {x : Option ApuState} {s : State} (h : UnattachedWith x s) (a : Addr) (v : Byte) :
    UnattachedWith x (busWrite s a v) := by
  obtain h' | h' | h' | h' | ⟨i, h'⟩ | ⟨i, h'⟩ | ⟨i, h'⟩ | h' | h' := busWrite_cases s a v <;> rw [h']
  case inr.inr.inr.inl => exact UnattachedWith.publish (s := s.setApus (Config.apuWrite s.apus a v)) h
  all_goals exact h

/-- STEP publishes once at its end; without a synth nothing in it does. -/
theorem advance_snap (s : State) (n : Nat) :
    (advance s n).snap = if (advance s n).synthAttached then some (advance s n).apus else s.snap := by
  obtain ⟨-, -, -, hsynth, -⟩ := outOfReach_advance s n
  have hattached : (advance s n).synthAttached = s.synthAttached := congrArg Option.isSome hsynth
  rw [advance, publish_snap_eq, ← advance, hattached]
  split
  case isTrue => rfl
  case isFalse hnot =>
    have hstart : UnattachedWith s.snap { s with cycTotal := s.cycTotal + n } :=
      ⟨Bool.eq_false_of_not_eq_true hnot, rfl⟩
    have hio := ioPart_keeps (P := UnattachedWith s.snap) (fun _ _ h => h) (fun _ _ h => h) (fun _ a v h => h.busWrite a v)
      (fun _ _ h => h) (fun _ _ h => h) (fun _ _ h => h) n hstart
    rw [apuPart, apuAdvance_foldl]
    exact hio.2

/-- The operations that publish (44_cartridge_and_passthrough.md R207). -/
def IsPublishPoint (i : Instr) : Prop :=
  (∃ a v, i = .wrApu a v) ∨ (∃ a v, i = .wr a v ∧ 0xFF10 ≤ a.toNat ∧ a.toNat ≤ 0xFF3F)
    ∨ (∃ c, i = .step c) ∨ ∃ h, i = .attachSynth h

theorem exec_snap_of_isPublishPoint {i : Instr} {s t : State} (h : exec i s = .next t) (hi : IsPublishPoint i) :
    t.snap = if t.synthAttached then some t.apus else s.snap := by
  obtain ⟨a, v, rfl⟩ | ⟨a, v, rfl, ha⟩ | ⟨c, rfl⟩ | ⟨hd, rfl⟩ := hi
  · rw [exec_wrApu] at h
    obtain rfl := Host.Outcome.next.inj h
    rfl
  · rw [exec_wr .apu v ha, Region.writeInstr, exec_wrApu] at h
    obtain rfl := Host.Outcome.next.inj h
    rfl
  · obtain rfl := Host.Outcome.next.inj h
    exact advance_snap s c.toNat
  · obtain rfl := Host.Outcome.next.inj h
    rfl

theorem exec_snap_of_not_isPublishPoint {i : Instr} {s t : State} (h : exec i s = .next t) (hreset : i ≠ .reset)
    (hi : ¬ IsPublishPoint i) : t.snap = s.snap := by
  cases i
  case reset => exact absurd rfl hreset
  case wrApu a v => exact absurd (.inl ⟨a, v, rfl⟩) hi
  case step c => exact absurd (.inr (.inr (.inl ⟨c, rfl⟩))) hi
  case attachSynth hd => exact absurd (.inr (.inr (.inr ⟨hd, rfl⟩))) hi
  all_goals obtain rfl := Host.Outcome.next.inj h
  case wr a v => exact busWrite_snap v fun ha => hi (.inr (.inl ⟨a, v, rfl, ha⟩))
  case rd a => exact busRead_field State.snap s a (fun _ => rfl) (fun _ => rfl)
  case wrEram a v => exact writeEram_field State.snap s a v fun _ => rfl
  all_goals rfl

/-- Settles O51: the publish points one by one, every other operation by its frame. -/
theorem snapshotChangesOnlyAtPublishPoints : Obligations.SnapshotChangesOnlyAtPublishPoints :=
  fun _ _ _ h hreset => ⟨exec_snap_of_isPublishPoint h, exec_snap_of_not_isPublishPoint h hreset⟩

end Sys2Proof.Machine

/-! ## The invariant of the block

RESET creates it (`invariant_created`). All but the accounting of cycles is kept by every bus access, and so by the callbacks
of STEP (`InvariantButAccounts`), whose counters run apart until STEP ends; the accounts are kept by their own frame. -/

namespace Sys2Proof.Machine

/-! ### The controller's zero-bank invariant (10_state.md R22) -/

theorem Controller.onType1_banksOk {f : Type1 → Type1} (hf : ∀ r, r.romb5 ≠ 0#5 → (f r).romb5 ≠ 0#5) {c : Controller}
    (h : c.banksOk = true) : (c.onType1 f).banksOk = true := by
  cases c
  case type1 r => exact bne_iff_ne.mpr (hf r (bne_iff_ne.mp h))
  all_goals exact h

theorem Controller.onType3_banksOk {f : Type3 → Type3} (hf : ∀ r, r.romb7 ≠ 0#7 → (f r).romb7 ≠ 0#7) {c : Controller}
    (h : c.banksOk = true) : (c.onType3 f).banksOk = true := by
  cases c
  case type3 r => exact bne_iff_ne.mpr (hf r (bne_iff_ne.mp h))
  all_goals exact h

/-- The bank register of `Type5` may hold 0. -/
theorem Controller.onType5_banksOk (f : Type5 → Type5) {c : Controller} (h : c.banksOk = true) :
    (c.onType5 f).banksOk = true := by
  cases c <;> exact h

theorem Type1.control_romb5_ne_zero (a : Addr) (v : Byte) {r : Type1} (h : r.romb5 ≠ 0#5) :
    (r.control a v).romb5 ≠ 0#5 := by
  unfold Type1.control
  split_ifs
  · exact h
  · exact romb5Of_ne_zero v
  · exact h
  · exact h

theorem Type3.control_romb7_ne_zero (a : Addr) (v : Byte) {r : Type3} (h : r.romb7 ≠ 0#7) :
    (r.control a v).romb7 ≠ 0#7 := by
  unfold Type3.control
  split_ifs
  · exact h
  · exact romb7Of_ne_zero v
  · exact h
  · exact h

theorem Controller.write_banksOk (a : Addr) (v : Byte) {c : Controller} (h : c.banksOk = true) :
    (c.write a v).banksOk = true := by
  unfold Controller.write
  split
  case isFalse => exact h
  case isTrue =>
    cases c with
    | none => rfl
    | type1 r => exact Controller.onType1_banksOk (fun _ => Type1.control_romb5_ne_zero a v) h
    | type3 r => exact Controller.onType3_banksOk (fun _ => Type3.control_romb7_ne_zero a v) h
    | type5 r => rfl

theorem Controller.initial_banksOk (x : Variant) : (Controller.initial x).banksOk = true := by cases x <;> rfl

/-! ### All of the invariant but the accounts -/

/-- The invariant without the accounting of cycles, which does not hold between the calls of a STEP. -/
abbrev InvariantButAccounts (s : State) : Prop := MemoriesOk s ∧ s.ctrl.banksOk = true ∧ SnapOk s ∧ DrawsOk s

theorem invariant_iff {s : State} : Invariant s ↔ InvariantButAccounts s ∧ AccountsOk s := by
  constructor
  · rintro ⟨hmem, hbanks, haccounts, hsnap, hdraws⟩
    exact ⟨⟨hmem, hbanks, hsnap, hdraws⟩, haccounts⟩
  · rintro ⟨⟨hmem, hbanks, hsnap, hdraws⟩, haccounts⟩
    exact ⟨hmem, hbanks, haccounts, hsnap, hdraws⟩

theorem invariant_created (cfg : Cfg) (port : List Packet) (draw : Nat) : Invariant (State.created cfg port draw) := by
  refine ⟨⟨rfl, rfl, rfl, rfl, rfl⟩, rfl, accountsOk_iff.mpr ⟨rfl, rfl, rfl, rfl⟩, rfl, ?_⟩
  simp only [DrawsOk, State.created]
  omega

/-- Bytes of the first buffer may have been written to give the second. -/
structure Rewritten (m m' : Memory) : Prop where
  wf : m.wf = true → m'.wf = true
  size : m'.size = m.size
  draw : m'.draw = m.draw

theorem rewritten_refl (m : Memory) : Rewritten m m := ⟨id, rfl, rfl⟩

theorem rewritten_write (m : Memory) (i : Nat) (v : Byte) : Rewritten m (m.write i v) :=
  ⟨m.write_wf i v, m.write_size i v, m.write_draw i v⟩

section
variable {s : State} (h : InvariantButAccounts s)
include h

theorem invariantButAccounts_memory {e w m : Memory} (he : Rewritten s.eram e) (hw : Rewritten s.wram w)
    (hm : Rewritten s.hram m) : InvariantButAccounts { s with eram := e, wram := w, hram := m } := by
  obtain ⟨⟨hewf, hwwf, hmwf, hwsize, hmsize⟩, hbanks, hsnap, hdraws⟩ := h
  exact ⟨⟨he.wf hewf, hw.wf hwwf, hm.wf hmwf, hw.size.trans hwsize, hm.size.trans hmsize⟩, hbanks, hsnap,
    by simpa only [DrawsOk, he.draw, hw.draw, hm.draw] using hdraws⟩

theorem invariantButAccounts_setCtrl {c : Controller} (hc : s.ctrl.banksOk = true → c.banksOk = true) :
    InvariantButAccounts (s.setCtrl c) := by
  obtain ⟨hmem, hbanks, hrest⟩ := h
  exact ⟨hmem, hc hbanks, hrest⟩

theorem invariantButAccounts_onType1 {f : Type1 → Type1} (hf : ∀ r, r.romb5 ≠ 0#5 → (f r).romb5 ≠ 0#5) :
    InvariantButAccounts (s.setCtrl (s.ctrl.onType1 f)) :=
  invariantButAccounts_setCtrl h (Controller.onType1_banksOk hf)

theorem invariantButAccounts_onType3 {f : Type3 → Type3} (hf : ∀ r, r.romb7 ≠ 0#7 → (f r).romb7 ≠ 0#7) :
    InvariantButAccounts (s.setCtrl (s.ctrl.onType3 f)) :=
  invariantButAccounts_setCtrl h (Controller.onType3_banksOk hf)

theorem invariantButAccounts_onType5 (f : Type5 → Type5) : InvariantButAccounts (s.setCtrl (s.ctrl.onType5 f)) :=
  invariantButAccounts_setCtrl h (Controller.onType5_banksOk f)

theorem invariantButAccounts_mbcWrite (a : Addr) (v : Byte) : InvariantButAccounts (mbcWrite s a v) :=
  invariantButAccounts_setCtrl h (Controller.write_banksOk a v)

theorem invariantButAccounts_publish : InvariantButAccounts (publish s) := by
  obtain ⟨hmem, hbanks, hsnap, hdraws⟩ := h
  rw [publish_eq]
  refine ⟨hmem, hbanks, ?_, hdraws⟩
  show (if s.synthAttached then some s.apus else s.snap).isSome = s.synthAttached
  split
  case isTrue hattached => exact hattached.symm
  case isFalse => exact hsnap

theorem invariantButAccounts_apuWriteAt (a : Addr) (v : Byte) : InvariantButAccounts (apuWriteAt s a v) :=
  invariantButAccounts_publish (s := s.setApus (Config.apuWrite s.apus a v)) h

theorem invariantButAccounts_writeEram (a : Addr) (v : Byte) : InvariantButAccounts (writeEram s a v) := by
  rw [writeEram_eq]
  refine invariantButAccounts_memory h ?_ (rewritten_refl _) (rewritten_refl _)
  split
  · exact rewritten_write _ _ _
  · exact rewritten_refl _

theorem invariantButAccounts_writeWram (a : Addr) (v : Byte) : InvariantButAccounts (writeWram s a v) :=
  invariantButAccounts_memory h (rewritten_refl _) (rewritten_write _ _ _) (rewritten_refl _)

theorem invariantButAccounts_writeHram (a : Addr) (v : Byte) : InvariantButAccounts (writeHram s a v) :=
  invariantButAccounts_memory h (rewritten_refl _) (rewritten_refl _) (rewritten_write _ _ _)

theorem invariantButAccounts_busRead (a : Addr) : InvariantButAccounts (busRead s a).2 := by
  obtain h' | ⟨x, h'⟩ | ⟨x, h'⟩ := busRead_cases s a <;> rw [h'] <;> exact h

theorem invariantButAccounts_busWrite (a : Addr) (v : Byte) : InvariantButAccounts (busWrite s a v) := by
  unfold busWrite
  cases regionOf s.cfg.ifAddr a
  case rom0 | romx => exact invariantButAccounts_mbcWrite h a v
  case eram => exact invariantButAccounts_writeEram h a v
  case wram => exact invariantButAccounts_writeWram h a v
  case apu => exact invariantButAccounts_apuWriteAt h a v
  case hram => exact invariantButAccounts_writeHram h a v
  all_goals exact h

/-- STEP: the callbacks by the bus, the audio part because it reaches `APUS` and a counter alone, then a publish. -/
theorem invariantButAccounts_advance (n : Nat) : InvariantButAccounts (advance s n) := by
  have hio : InvariantButAccounts (ioPart { s with cycTotal := s.cycTotal + n } n) :=
    ioPart_keeps (P := InvariantButAccounts) (fun _ _ h => h) (fun _ _ h => h)
      (fun _ a v h => invariantButAccounts_busWrite h a v) (fun _ _ h => h) (fun _ _ h => h) (fun _ _ h => h) n h
  refine invariantButAccounts_publish ?_
  rw [apuPart, apuAdvance_foldl]
  exact hio

theorem invariantButAccounts_loaded (image : List Byte) : InvariantButAccounts (s.loaded image) := by
  obtain ⟨⟨-, hmem⟩, -, hsnap, hdraws⟩ := h
  refine ⟨⟨Memory.fresh_wf _ _, hmem⟩, Controller.initial_banksOk _, hsnap, ?_⟩
  simp only [DrawsOk, State.loaded, Memory.fresh] at hdraws ⊢
  omega

/-- Every operation, by what it calls; the last case holds those that reach no buffer, controller, synth or snapshot. -/
theorem invariantButAccounts_exec {i : Instr} {t : State} (ht : exec i s = .next t) : InvariantButAccounts t := by
  cases i
  all_goals obtain rfl := Host.Outcome.next.inj ht
  case rd a => exact invariantButAccounts_busRead h a
  case wr a v => exact invariantButAccounts_busWrite h a v
  case step c => exact invariantButAccounts_advance h c.toNat
  case loadRom image => exact invariantButAccounts_loaded h image
  case reset => exact (invariant_iff.mp (invariant_created s.cfg s.port s.draws)).1
  case attachSynth hd =>
    obtain ⟨hmem, hbanks, -, hdraws⟩ := h
    exact ⟨hmem, hbanks, rfl, hdraws⟩
  case wrMbc a v | mbcWrite a v => exact invariantButAccounts_mbcWrite h a v
  case wrEram a v => exact invariantButAccounts_writeEram h a v
  case wrWram a v => exact invariantButAccounts_writeWram h a v
  case wrHram a v => exact invariantButAccounts_writeHram h a v
  case wrApu a v => exact invariantButAccounts_apuWriteAt h a v
  case t1Romb a v => exact invariantButAccounts_onType1 h fun _ _ => romb5Of_ne_zero v
  case t3Romb a v => exact invariantButAccounts_onType3 h fun _ _ => romb7Of_ne_zero v
  case t1Ramen | t1Sec | t1Mode => exact invariantButAccounts_onType1 h fun _ hr => hr
  case t3Ramen | t3Ramb => exact invariantButAccounts_onType3 h fun _ hr => hr
  case t5Ramen | t5RombLo | t5RombHi | t5Ramb => exact invariantButAccounts_onType5 h _
  all_goals exact h

end

/-! ### The accounts (10_state.md R27) -/

/-- Only STEP and RESET count; every other operation leaves the counters alone. -/
theorem accountsOk_exec {i : Instr} {s t : State} (h : AccountsOk s) (ht : exec i s = .next t) : AccountsOk t := by
  cases i
  all_goals obtain rfl := Host.Outcome.next.inj ht
  case rd a => exact accountsOk_of_outOfReach (t := (busRead s a).2) (outOfReach_busRead s a) h
  case wr a v => exact accountsOk_of_outOfReach (t := busWrite s a v) (outOfReach_busWrite a v (outOfReach_refl s)) h
  case step c =>
    exact accountsOk_of_outOfReach (t := advance s c.toNat) (outOfReach_advance s c.toNat) (accountsOk_counted h c.toNat)
  case reset => exact (invariant_iff.mp (invariant_created s.cfg s.port s.draws)).2
  case wrEram a v =>
    rw [writeEram_eq]
    exact h
  case wrApu a v =>
    rw [apuWriteAt, publish_eq]
    exact h
  all_goals exact h

/-- Settles O59: a waiting step changes nothing; the operation of any other keeps both halves of the invariant. -/
theorem stepKeepsTheInvariant : Obligations.StepKeepsTheInvariant := by
  intro s t hinv hstep
  obtain ⟨-, rfl⟩ | ⟨p, rest, i, -, -, ht⟩ := step_cases hstep
  · exact hinv
  · obtain ⟨hbut, haccounts⟩ := invariant_iff.mp hinv
    exact invariant_iff.mpr ⟨invariantButAccounts_exec (s := { s with port := rest }) hbut ht,
      accountsOk_exec (s := { s with port := rest }) haccounts ht⟩

/-- Settles O60: the state after reset is a creation state. -/
theorem resetMeetsTheInvariant : Obligations.ResetMeetsTheInvariant := invariant_created Cfg.unfixed [] 0

end Sys2Proof.Machine
